-- ==== Sys2Proof/Word.lean ====
section
/-!
DEFINITION. The words of the model: bytes, block numbers, samples, and the numbers that name a channel, a
letter slot, a take and a profile (00 "Terms", R58, R86, R103, R27).
-/

namespace Sys2Proof

/-- Eight bits, as sent on either link and as stored (R201). -/
abbrev Byte := BitVec 8

/-- A block number of the store, as a block header and a ring slot hold it (R117, R204). -/
abbrev BlockNo := BitVec 16

/-- A 16-bit signed linear audio value (00 "Terms"). -/
abbrev Sample := BitVec 16

/-- A recorder channel. The manual numbers channels 1 to 24; `c : Chan` is channel `c + 1`. -/
abbrev Chan := Fin 24

/-- A letter slot, 0 to 47 (R103). -/
abbrev Slot := Fin 48

/-- A take id, 0 to 127 (R86). -/
abbrev TakeId := Fin 128

/-- A profile id, 0 to 15 (R27). -/
abbrev ProfileId := Fin 16

/-- The manual's number of a channel, 1 to 24. -/
def Chan.number (c : Chan) : Nat := c.val + 1

end Sys2Proof
end

