-- ==== Sys2Proof/Machine/Bytes.lean ====
section
/-!
DEFINITION. Byte order and the two checks (R201, R205).
-/

namespace Sys2Proof.Machine

/-- Byte `i` of a list of bytes, 0 past its end (unused payload bytes are zero, R201). -/
def byteAt (bytes : List Byte) (i : Nat) : Byte := bytes.getD i 0

/-- The big-endian 16-bit word of bytes `i` and `i + 1`. -/
def wordAt (bytes : List Byte) (i : Nat) : BitVec 16 := byteAt bytes i ++ byteAt bytes (i + 1)

/-- The big-endian 24-bit value of bytes `i` to `i + 2`. -/
def tripleAt (bytes : List Byte) (i : Nat) : BitVec 24 :=
  byteAt bytes i ++ byteAt bytes (i + 1) ++ byteAt bytes (i + 2)

/-- The two bytes of a 16-bit word, high byte first. -/
def wordBytes (w : BitVec 16) : List Byte := [w.extractLsb' 8 8, w.extractLsb' 0 8]

/-- The three bytes of a 24-bit value, high byte first. -/
def tripleBytes (w : BitVec 24) : List Byte :=
  [w.extractLsb' 16 8, w.extractLsb' 8 8, w.extractLsb' 0 8]

/-- The four bytes of a 32-bit value, high byte first. -/
def quadBytes (w : BitVec 32) : List Byte :=
  [w.extractLsb' 24 8, w.extractLsb' 16 8, w.extractLsb' 8 8, w.extractLsb' 0 8]

/-- A number as one byte. -/
def be8 (n : Nat) : List Byte := [BitVec.ofNat 8 n]

/-- A number as two bytes, big-endian. -/
def be16 (n : Nat) : List Byte := wordBytes (BitVec.ofNat 16 n)

/-- A number as three bytes, big-endian. -/
def be24 (n : Nat) : List Byte := tripleBytes (BitVec.ofNat 24 n)

/-- A truth value as the low bit of a byte. -/
def flagBit (b : Bool) (position : Nat) : Byte := if b then 1#8 <<< position else 0

/-- One shift of a check's register (R205): the bit shifted out decides whether the low terms are combined in. -/
def crcShift {w : Nat} (low : BitVec w) (r : BitVec w) : BitVec w :=
  if r.msb then (r <<< 1) ^^^ low else r <<< 1

/-- Eight shifts. -/
def crcShift8 {w : Nat} (low r : BitVec w) : BitVec w :=
  crcShift low (crcShift low (crcShift low (crcShift low
    (crcShift low (crcShift low (crcShift low (crcShift low r)))))))

/-- The CRC-16's register after one more byte: polynomial low terms 0x1021 (R205). -/
def crc16Byte (r : BitVec 16) (b : Byte) : BitVec 16 := crcShift8 0x1021 (r ^^^ (b ++ 0#8))

/-- The CRC-16's register after more bytes. -/
def crc16From (r : BitVec 16) (bytes : List Byte) : BitVec 16 := bytes.foldl crc16Byte r

/-- The CRC-16 of a run of bytes, from the initial value 0xFFFF (R205). -/
def crc16 (bytes : List Byte) : BitVec 16 := crc16From 0xFFFF bytes

/-- The header check: low terms 0x8D, initial value 0xFF (R205). -/
def crc8 (bytes : List Byte) : Byte := bytes.foldl (fun r b => crcShift8 0x8D (r ^^^ b)) 0xFF

/-- A payload filled with zero bytes up to `n` (R49, R201). -/
def padTo (n : Nat) (bytes : List Byte) : List Byte := bytes ++ List.replicate (n - bytes.length) 0

end Sys2Proof.Machine
end

