-- ==== Sys2Proof/Syntax.lean ====
section
/-!
DEFINITION. The commands: one constructor for every row of spec/opcode_table.json, in the table's order.
-/

namespace Sys2Proof

/-- The edit mode of a channel (R58, R69). -/
inductive EditMode where
  | insert
  | overwrite
deriving DecidableEq, Repr

/-- The mode argument of SEEK (R62). -/
inductive SeekMode where
  | absolute
  | relative
deriving DecidableEq, Repr

/-- What every MGMT cell carries beside its command byte and arguments (R163): its tag, its used count, and
whether the CRC-16 over payload bytes 0–61 equals bytes 62–63. -/
structure Mgmt where
  tag : Byte
  used : Byte
  intact : Bool
deriving DecidableEq, Repr

/-- The commands. A `changed` operand lists store (or configuration memory) bytes that differ, by causes outside
the part, from what the model holds (log 6). A `placed` or `saved` operand says, byte by byte, which bytes of a
write that failed or was cut the memory took all the same (R120, R123, R198, log 7). -/
inductive Instr where
  /-- R193: power-on reset, or a low level on *RESETN*. `placed` says which bytes of a store write cut by it the store
  took (R123), `saved` which bytes of a configuration piece (R198). -/
  | fullReset (placed saved : List Bool)
  /-- R193: the configuration bus-release sequence ends. -/
  | busReleaseEnd
  /-- R194: a read attempt ends; `acked` tells whether every acknowledge was given. -/
  | configReadAttemptEnd (acked : Bool) (changed : List Host.Cell)
  /-- R40: four bytes of the inbound stream are tested as a header in HUNT. -/
  | huntByteTest (b0 b1 b2 b3 : Byte)
  /-- R41: the 68 bytes at the candidate alignment in PRESYNC. -/
  | presyncHeader (cell : Vector Byte 68)
  /-- R42: the 68 bytes at a cell boundary in SYNC. -/
  | intakeCell (cell : Vector Byte 68)
  /-- R50, R51: an AUDIO cell is taken at the frame assembler. -/
  | audio (c : Chan) (seq : BitVec 4) (samples : Vector Sample 32)
  /-- R65. -/
  | record (c : Chan)
  /-- R67. -/
  | stop (c : Chan)
  /-- R68; the 24-bit value is unsigned in mode ABSOLUTE and signed in mode RELATIVE. -/
  | seek (c : Chan) (mode : SeekMode) (value : BitVec 24)
  /-- R69. -/
  | editmode (c : Chan) (mode : EditMode)
  /-- R69. -/
  | instruct (c : Chan) (on : Bool)
  /-- R70; 0 means to the end of the letter. -/
  | erase (c : Chan) (count : BitVec 24)
  /-- R71; `none` is the argument 15, which asks for the profile's default priority. -/
  | submit (c : Chan) (priority : Option (Fin 4))
  /-- R73. -/
  | discard (c : Chan)
  /-- R74. -/
  | position (c : Chan)
  /-- R62: a CONTROL cell that carries no known command; `code` is 0 when the used count was 0. -/
  | controlUnknown (c : Chan) (code : Byte)
  /-- R80. -/
  | idleStopExpiry (c : Chan)
  /-- R81. -/
  | abandonExpiry (c : Chan)
  /-- R76: the channel's stretch-end report is taken. -/
  | stretchEnd (c : Chan)
  /-- R78: the channel's store-full stop report is taken. -/
  | storeFullStop (c : Chan)
  /-- R78: the channel's long stop report is taken. -/
  | longStop (c : Chan)
  /-- R79: the channel's write-fault report is taken. -/
  | writeFault (c : Chan)
  /-- R1, R2. -/
  | coderTakeFrame
  /-- R5. -/
  | coderArithmeticDone
  /-- R95. -/
  | takeWriterTakeWork
  /-- R97, R98: a record write or gap count write ends COMPLETE. -/
  | recordWriteDone
  /-- R90, R97: a header write ends COMPLETE. -/
  | headerWriteDone
  /-- R92, R93: a walk's header read ends COMPLETE. -/
  | walkHeaderReadDone (changed : List Host.Cell)
  /-- R130: an allocation's ring read ends COMPLETE. -/
  | ringReadDone (changed : List Host.Cell)
  /-- R131: a return's ring write ends COMPLETE. -/
  | ringWriteDone
  /-- R134: a rebuild's ring write ends COMPLETE. -/
  | rebuildWriteDone
  /-- R146: an emitter block read ends COMPLETE. -/
  | emitterBlockReadDone (changed : List Host.Cell)
  /-- R175: a verify block read ends COMPLETE. -/
  | verifyBlockReadDone (changed : List Host.Cell)
  /-- R179: a peek read ends COMPLETE. -/
  | peekReadDone (changed : List Host.Cell)
  /-- R120: the access in progress ends TIMEOUT. -/
  | readyTimeout (placed : List Bool)
  /-- R150. -/
  | holdAssert
  /-- R150. -/
  | holdNegate
  /-- R150: the pool cell being sent ends. -/
  | poolCellEnd
  /-- R49: the outbound intake cell being sent ends. -/
  | returnCellEnd
  /-- R164: a command byte that names no command. -/
  | mgmtUnknown (m : Mgmt) (code : Byte)
  /-- R166. -/
  | ident (m : Mgmt)
  /-- R29; `fields` is the 16-byte profile of R192. -/
  | profileWrite (m : Mgmt) (profile : Byte) (fields : Vector Byte 16)
  /-- R35. -/
  | profileRead (m : Mgmt) (profile : Byte)
  /-- R36, R37. -/
  | channelBind (m : Mgmt) (channel profile : Byte)
  /-- R168. -/
  | channelRead (m : Mgmt) (channel : Byte)
  /-- R169. -/
  | channelClear (m : Mgmt) (channel : Byte)
  /-- R171. -/
  | letterList (m : Mgmt) (first : Byte)
  /-- R172. -/
  | letterRead (m : Mgmt) (slot : Byte)
  /-- R173. -/
  | mapRead (m : Mgmt) (slot index : Byte)
  /-- R174. -/
  | letterVerify (m : Mgmt) (slot : Byte) (number : BitVec 16)
  /-- R177. -/
  | emitAgain (m : Mgmt) (slot : Byte) (number : BitVec 16)
  /-- R178. -/
  | drop (m : Mgmt) (slot : Byte) (number : BitVec 16)
  /-- R179. -/
  | blockPeek (m : Mgmt) (block offset : BitVec 16)
  /-- R166. -/
  | storeRead (m : Mgmt)
  /-- R180. -/
  | statusRead (m : Mgmt)
  /-- R180, R188. -/
  | statusClear (m : Mgmt) (device : BitVec 16) (channel conditions : Byte)
  /-- R181. -/
  | maskWrite (m : Mgmt) (error warning : Byte)
  /-- R182. -/
  | configSave (m : Mgmt)
  /-- R197, R198: a piece's write transfer ends; `acked` tells whether every acknowledge was given. -/
  | configPieceTransferEnd (acked : Bool) (placed : List Bool)
  /-- R197: the memory acknowledges after its internal write. -/
  | configWriteAck
  /-- R198: no acknowledge 20 ms after a piece's transfer. -/
  | configWriteTimeout (placed : List Bool)
  /-- R183. -/
  | restart (m : Mgmt)
deriving DecidableEq, Repr

end Sys2Proof
end

