-- ==== Sys2Proof/Decode.lean ====
section
/-!
DEFINITION. Reading commands. The rows of spec/opcode_table.json give no bits, so `decodeTableWord` reads none.
The cells of the intake link do carry commands as bytes (R201 to R203): `readCell` reads any 68 bytes, rejecting by
name, and `encodeCell` writes the cell of a command that a cell can carry.
-/

namespace Sys2Proof

open Sys2Proof.Machine

/-- The command a word spells by the table's bits: no row of the table gives bits (log 26). -/
def decodeTableWord (_nbits _w : Nat) : Option Instr := none

/-- What the intake port finds in 68 bytes (R42, R44, R45). -/
inductive CellReading where
  /-- The header check does not match (R42). -/
  | badHeader
  /-- The used count is above 64, or an AUDIO cell's is not 64 (R44). -/
  | badUsed
  /-- The kind and channel have no route (R45). -/
  | misrouted
  /-- The cell is handed over, and carries this command. -/
  | routed (i : Instr)
deriving DecidableEq, Repr

/-- The SUBMIT argument: 0–3, or 15 for the profile's default (R62). -/
def decodePriority (b : Byte) : Option (Option (Fin 4)) :=
  if b = 15 then some none
  else if h : b.toNat < 4 then some (some ⟨b.toNat, h⟩)
  else none

/-- The command of a CONTROL payload for channel `c` (R62, R202). -/
def decodeControl (c : Chan) (used : Nat) (p : List Byte) : Instr :=
  let code := byteAt p 0
  if used = 0 then .controlUnknown c 0
  else if code = 1 then .record c
  else if code = 2 then .stop c
  else if code = 3 ∧ 5 ≤ used ∧ byteAt p 1 = 0 then .seek c .absolute (tripleAt p 2)
  else if code = 3 ∧ 5 ≤ used ∧ byteAt p 1 = 1 then .seek c .relative (tripleAt p 2)
  else if code = 4 ∧ 2 ≤ used ∧ byteAt p 1 = 0 then .editmode c .insert
  else if code = 4 ∧ 2 ≤ used ∧ byteAt p 1 = 1 then .editmode c .overwrite
  else if code = 5 ∧ 2 ≤ used ∧ byteAt p 1 = 0 then .instruct c false
  else if code = 5 ∧ 2 ≤ used ∧ byteAt p 1 = 1 then .instruct c true
  else if code = 6 ∧ 4 ≤ used then .erase c (tripleAt p 1)
  else if code = 7 ∧ 2 ≤ used then
    match decodePriority (byteAt p 1) with
    | some priority => .submit c priority
    | none => .controlUnknown c code
  else if code = 8 then .discard c
  else if code = 9 then .position c
  else .controlUnknown c code

/-- Bytes `i` to `i + 15` of a payload: a profile as area B lays it out (R192, R203). -/
def profileBytesAt (p : List Byte) (i : Nat) : Vector Byte 16 := Vector.ofFn fun k => byteAt p (i + k.val)

/-- What a MGMT payload carries beside command and arguments: the check is tested over bytes 0–61 (R163). With a
used count of 0 the tag byte is absent. -/
def decodeMgmtHead (used : Byte) (p : List Byte) : Mgmt where
  tag := if used = 0 then 0 else byteAt p 0
  used := used
  intact := used == 64 && crc16 (p.take 62) == wordAt p 62

/-- The command of a MGMT payload (R163, R203). With a used count of 0 or 1 the command byte is absent. -/
def decodeMgmt (used : Byte) (p : List Byte) : Instr :=
  let m := decodeMgmtHead used p
  if used.toNat < 2 then .mgmtUnknown m 0
  else match (byteAt p 1).toNat with
    | 0x01 => .ident m
    | 0x02 => .profileWrite m (byteAt p 2) (profileBytesAt p 3)
    | 0x03 => .profileRead m (byteAt p 2)
    | 0x04 => .channelBind m (byteAt p 2) (byteAt p 3)
    | 0x05 => .channelRead m (byteAt p 2)
    | 0x06 => .channelClear m (byteAt p 2)
    | 0x07 => .letterList m (byteAt p 2)
    | 0x08 => .letterRead m (byteAt p 2)
    | 0x09 => .mapRead m (byteAt p 2) (byteAt p 3)
    | 0x0A => .letterVerify m (byteAt p 2) (wordAt p 3)
    | 0x0B => .emitAgain m (byteAt p 2) (wordAt p 3)
    | 0x0C => .drop m (byteAt p 2) (wordAt p 3)
    | 0x0D => .blockPeek m (wordAt p 2) (wordAt p 4)
    | 0x0E => .storeRead m
    | 0x0F => .statusRead m
    | 0x10 => .statusClear m (wordAt p 2) (byteAt p 4) (byteAt p 5)
    | 0x11 => .maskWrite m (byteAt p 2) (byteAt p 3)
    | 0x12 => .configSave m
    | 0x13 => .restart m
    | _ => .mgmtUnknown m (byteAt p 1)

/-- The 32 samples of an AUDIO payload (R202). -/
def decodeSamples (p : List Byte) : Vector Sample 32 := Vector.ofFn fun n => wordAt p (2 * n.val)

/-- The header check of a cell matches (R42, R205). -/
def headerGood (cell : List Byte) : Bool := crc8 (cell.take 3) == byteAt cell 3

/-- The channel field of a cell header (R201). -/
def cellChannel (cell : List Byte) : Nat := (byteAt cell 0).toNat / 8

/-- The kind field of a cell header (R201). -/
def cellKind (cell : List Byte) : Nat := (byteAt cell 0).toNat % 8

/-- The sequence field of a cell header (R201). -/
def cellSequence (cell : List Byte) : BitVec 4 := (byteAt cell 1).extractLsb' 4 4

/-- What the port does with the cell of a valid header: the used count first (R44), then the route (R45). -/
def routeCell (cell : List Byte) : CellReading :=
  let used := byteAt cell 2
  let p := cell.drop 4
  if 64 < used.toNat then .badUsed
  else if cellKind cell = 1 ∧ used ≠ 64 then .badUsed
  else match cellKind cell with
    | 1 => if h : 1 ≤ cellChannel cell ∧ cellChannel cell ≤ 24 then
        .routed (.audio ⟨cellChannel cell - 1, by omega⟩ (cellSequence cell) (decodeSamples p))
      else .misrouted
    | 2 => if h : 1 ≤ cellChannel cell ∧ cellChannel cell ≤ 24 then
        .routed (decodeControl ⟨cellChannel cell - 1, by omega⟩ used.toNat p)
      else .misrouted
    | 3 => if cellChannel cell = 0 then .routed (decodeMgmt used p) else .misrouted
    | _ => .misrouted

/-- Read 68 bytes as a cell (R42, R44, R45). -/
def readCell (cell : List Byte) : CellReading :=
  if headerGood cell then routeCell cell else .badHeader

/-- A cell from its fields: channel, kind, sequence, the low bits of byte 1, used count, payload (R201). -/
def cellBytes (channel kind : Nat) (sequence : BitVec 4) (summary : BitVec 4) (used : Nat) (payload : List Byte) :
    List Byte :=
  let header := [BitVec.ofNat 8 (channel * 8 + kind), sequence ++ summary, BitVec.ofNat 8 used]
  header ++ [crc8 header] ++ padTo 64 payload

/-- A payload closed by the CRC-16 over its bytes 0–61 (R203). -/
def checkedPayload (bytes : List Byte) : List Byte :=
  let body := padTo 62 bytes
  body ++ wordBytes (crc16 body)

/-- The code of an edit mode (R202). -/
def editModeCode : EditMode → Nat
  | .insert => 0
  | .overwrite => 1

/-- The code of a SEEK mode (R202). -/
def seekModeCode : SeekMode → Nat
  | .absolute => 0
  | .relative => 1

/-- The SUBMIT argument byte (R202). -/
def priorityCode : Option (Fin 4) → Nat
  | none => 15
  | some p => p.val

/-- The CONTROL cell that carries payload bytes `p`, used whole, for a channel. -/
def controlCell (c : Chan) (p : List Byte) : List Byte := cellBytes c.number 2 0 0 p.length p

/-- The MGMT cell of an intact payload (R203). -/
def mgmtCell (m : Mgmt) (code : Nat) (arguments : List Byte) : List Byte :=
  cellBytes 0 3 0 0 64 (checkedPayload ([m.tag, BitVec.ofNat 8 code] ++ arguments))

/-- The cell of a command that a cell carries; `none` for an event of another kind, and for a MGMT command whose
payload is short or fails its check, which many cells share. -/
def encodeCell : Instr → Option (List Byte)
  | .audio c seq samples => some (cellBytes c.number 1 seq 0 64 (samples.toList.flatMap wordBytes))
  | .record c => some (controlCell c [1])
  | .stop c => some (controlCell c [2])
  | .seek c mode value => some (controlCell c ([3] ++ be8 (seekModeCode mode) ++ tripleBytes value))
  | .editmode c mode => some (controlCell c ([4] ++ be8 (editModeCode mode)))
  | .instruct c on => some (controlCell c [5, flagBit on 0])
  | .erase c count => some (controlCell c ([6] ++ tripleBytes count))
  | .submit c priority => some (controlCell c ([7] ++ be8 (priorityCode priority)))
  | .discard c => some (controlCell c [8])
  | .position c => some (controlCell c [9])
  | .controlUnknown c code => some (controlCell c (if code = 0 then [] else [code]))
  | i => encodeMgmt i
where
  /-- The MGMT rows. -/
  encodeMgmt : Instr → Option (List Byte)
    | .ident m => intact m 0x01 []
    | .profileWrite m profile fields => intact m 0x02 ([profile] ++ fields.toList)
    | .profileRead m profile => intact m 0x03 [profile]
    | .channelBind m channel profile => intact m 0x04 [channel, profile]
    | .channelRead m channel => intact m 0x05 [channel]
    | .channelClear m channel => intact m 0x06 [channel]
    | .letterList m first => intact m 0x07 [first]
    | .letterRead m slot => intact m 0x08 [slot]
    | .mapRead m slot index => intact m 0x09 [slot, index]
    | .letterVerify m slot number => intact m 0x0A ([slot] ++ wordBytes number)
    | .emitAgain m slot number => intact m 0x0B ([slot] ++ wordBytes number)
    | .drop m slot number => intact m 0x0C ([slot] ++ wordBytes number)
    | .blockPeek m block offset => intact m 0x0D (wordBytes block ++ wordBytes offset)
    | .storeRead m => intact m 0x0E []
    | .statusRead m => intact m 0x0F []
    | .statusClear m device channel conditions => intact m 0x10 (wordBytes device ++ [channel, conditions])
    | .maskWrite m error warning => intact m 0x11 [error, warning]
    | .configSave m => intact m 0x12 []
    | .restart m => intact m 0x13 []
    | .mgmtUnknown m code => intact m code.toNat []
    | _ => none
  /-- An intact cell, if the head says it is one. -/
  intact (m : Mgmt) (code : Nat) (arguments : List Byte) : Option (List Byte) :=
    if m.intact then some (mgmtCell m code arguments) else none

end Sys2Proof
end

