-- ==== Sys2Proof/Config.lean ====
section
/-!
DEFINITION. What one part fixes: its codes and capacities, and the free values, which are the bytes that the two
external memories hold before the part has written them.
-/

namespace Sys2Proof.Config

/-- The part code IDENT reports (R166). -/
def partCode : Nat := 0x2416

/-- The revision code IDENT reports (R166). -/
def revision : Nat := 1

/-- The channel count IDENT reports (R166). -/
def channelCount : Nat := 24

/-- The greatest length of a letter in frames (L1, R108). -/
def maxLength : Nat := 262143

/-- Capacity of the frame queue (R54). -/
def frameQueueSize : Nat := 32

/-- Capacity of the return queue (R47). -/
def returnQueueSize : Nat := 48

/-- Entries a map holds at most (L2, R108). -/
def mapSize : Nat := 40

/-- Bytes the largest store window has (R116); the model's store has no byte beyond. -/
def storeTop : Nat := 33554432

/-- Addresses a two-byte memory address can name (10, opening). -/
def configTop : Nat := 65536

/-- FREE VALUE (log 4): what the block store holds at an address the part has not written. "What lies in a
block's bytes before the part writes them is whatever the store held" (06, opening). -/
opaque storeByte : Nat → Byte

/-- FREE VALUE (log 5): what the configuration memory holds at an address that neither the part nor a
CONFIG_READ_ATTEMPT_END has set (10, opening). -/
opaque configByte : Nat → Byte

end Sys2Proof.Config
end

