-- ==== Sys2Proof/Machine/State.lean ====
section
/-!
DEFINITION. The part's state as plain data, every item the manual gives it (INVENTORY.md, "State"), and its value
right after a full reset.
-/

namespace Sys2Proof.Machine

/-- No command of this part ends in a fault: the manual names no event that stops it. The type has no constructor. -/
inductive Fault where
deriving DecidableEq, Repr

/-- Refusals: raised by `exec` for a row without a meaning; no row is without one. Safe. -/
inductive Refusal where
  /-- Raised by an arm of `exec` for a command not modelled yet. Safe: nothing is claimed of it. -/
  | notModelled (mnemonic : String)
deriving DecidableEq, Repr

/-- The bytes the part has written to an external memory, and those changed from outside, as (address, byte) pairs
with addresses strictly rising. An address not listed has no value here; reading it gives a free value (log 4, 5). -/
abbrev Memory := List Host.Cell

/-! ### Start-up (R193 to R195) -/

/-- Start-up states (R193). -/
inductive StartState where
  | powerOn
  | configLoad
  | storeInit
  | ready
deriving DecidableEq, Repr

/-- The two areas of the configuration memory (R192). -/
inductive Area where
  | a
  | b
deriving DecidableEq, Repr

/-- Wait modes of the store (R119, R120). -/
inductive WaitMode where
  | noWait
  | oneWait
  | onReady
deriving DecidableEq, Repr

/-- What area A fixes for the store controller (R116, R133, R192). -/
structure StoreSettings where
  window : Fin 4
  wait : WaitMode
  mark : BitVec 16
deriving DecidableEq, Repr

/-- Start-up state, and during CONFIG_LOAD the area being read, the attempt, and area A's settings (R193 to R195). -/
structure Startup where
  state : StartState
  area : Area
  attempt : Nat
  held : StoreSettings
deriving DecidableEq, Repr

/-! ### Intake link (R40 to R49) -/

/-- Cell sync states: PRESYNC with its count of valid headers, SYNC with its count of consecutive bad headers. -/
inductive Sync where
  | hunt
  | presync (count : Nat)
  | sync (bad : Nat)
deriving DecidableEq, Repr

/-- The intake port: its sync state, and the position in the inbound byte stream of the header it tests next. -/
structure IntakePort where
  sync : Sync
  nextHeader : Nat
deriving DecidableEq, Repr

/-- An outbound intake cell as a producer offers it, with the sequence number taken at the offer (R48, R49). -/
structure OutCell where
  channel : Nat
  kind : Nat
  sequence : BitVec 4
  used : Nat
  payload : List Byte
deriving DecidableEq, Repr

/-- The return queue, the cell being sent, and the 25 outbound sequence numbers (R47 to R49). -/
structure ReturnPath where
  queue : List OutCell
  line : Option (List Byte)
  seqs : Vector (BitVec 4) 25
deriving DecidableEq, Repr

/-! ### Frame assembler and frame queue (R50 to R57) -/

/-- What a position of an assembly buffer holds (03, "Assembling frames"). -/
inductive Piece where
  | received (samples : Vector Sample 32)
  | filler
  | pad
deriving DecidableEq, Repr

/-- A channel's assembly buffer with its positions filled in order, whether no item has been placed since RECORDING
was entered, the expected sequence, and the drop count. -/
structure Assembler where
  buf : List Piece
  fresh : Bool
  expected : Option (BitVec 4)
  drops : Nat
deriving DecidableEq, Repr

/-- A frame queue entry (R53). -/
structure FrameEntry where
  chan : Chan
  take : TakeId
  samples : List Sample
  patched : Bool
  allFiller : Bool
  drops : Nat
deriving DecidableEq, Repr

/-! ### Profiles and coder (R1 to R39) -/

/-- AGC modes (R27). -/
inductive AgcMode where
  | fixed
  | regulated
deriving DecidableEq, Repr

/-- A profile (R27); `idle` and `abandon` as stored. -/
structure Profile where
  width : Nat
  thr : Nat
  hang : Nat
  mode : AgcMode
  g0 : Nat
  target : Nat
  gmin : Nat
  gmax : Nat
  prio : Fin 4
  idle : Byte
  abandon : Byte
deriving DecidableEq, Repr

/-- The default profile (R27). -/
def Profile.default : Profile where
  width := 4
  thr := 96
  hang := 12
  mode := .regulated
  g0 := 256
  target := 2048
  gmin := 64
  gmax := 1023
  prio := 2
  idle := 0
  abandon := 0

/-- A coder context: gain, predictor, quiet run, low-level run (R6). -/
structure CoderCtx where
  g : Nat
  p : Int
  q : Nat
  low : Nat
deriving DecidableEq, Repr

/-- The context of an UNBOUND channel (R9). -/
def CoderCtx.unbound : CoderCtx where
  g := 256
  p := 0
  q := 255
  low := 0

/-- What is left to store of an item: a SPEECH record, or gap frames of one level and patched flag (R95). -/
inductive Content where
  | speech (record : List Byte) (patched : Bool)
  | gaps (count : Nat) (level : Byte) (patched : Bool)
deriving DecidableEq, Repr

/-- An item the coder hands over: a drop gap (R3), or a frame's own item (R4). -/
structure Item where
  chan : Chan
  take : TakeId
  content : Content
  dropGap : Bool
deriving DecidableEq, Repr

/-- The frame coder (R1): CODING with the entry, the working copy of the context (R5) and the profile taken with the
frame (R7); DELIVERING with the items not yet accepted (R4). -/
inductive Coder where
  | idle
  | coding (entry : FrameEntry) (ctx : CoderCtx) (profile : Profile)
  | delivering (take : TakeId) (items : List Item)
deriving DecidableEq, Repr

/-! ### Channel records (R58) -/

/-- Channel states (R58). -/
inductive ChanState where
  | unbound
  | idle
  | stopped
  | recording
  | stopping
deriving DecidableEq, Repr

/-- What the end of a stop in flight completes (R58, R76). -/
inductive PendingAction where
  | nothing
  | stop
  | autoStop
  | submit (priority : Fin 4)
deriving DecidableEq, Repr

/-- A channel record (R58). A running timer holds the time it was last started with: seconds for the idle-stop
timer, minutes for the abandon timer (log 9). -/
structure Channel where
  state : ChanState
  profile : Option ProfileId
  slot : Option Slot
  cursor : Nat
  mode : EditMode
  instruct : Bool
  cont : Bool
  pending : PendingAction
  idleTimer : Option Nat
  abandonTimer : Option Nat
deriving DecidableEq, Repr

/-- A channel record after full reset (R58). -/
def Channel.reset : Channel where
  state := .unbound
  profile := none
  slot := none
  cursor := 0
  mode := .insert
  instruct := false
  cont := false
  pending := .nothing
  idleTimer := none
  abandonTimer := none

/-! ### Letters and takes (R86 to R108) -/

/-- The two kinds of segment entry, and of section (R108, R145). -/
inductive SegKind where
  | content
  | instruction
deriving DecidableEq, Repr

/-- A segment entry (R108). -/
structure Segment where
  take : TakeId
  start : Nat
  count : Nat
  kind : SegKind
deriving DecidableEq, Repr

/-- States of a slot that is not FREE (R103). -/
inductive LetterState where
  | opened
  | queued
  | emitting
  | faulted
  | verifying
deriving DecidableEq, Repr

/-- The letter flags (R106). -/
structure LetterFlags where
  unattended : Bool
  patched : Bool
  lowLevel : Bool
  writeFault : Bool
  verifyFailed : Bool
deriving DecidableEq, Repr

/-- A letter, in a slot that is not FREE (R103). The priority and the submit stamp are absent while OPEN. -/
structure Letter where
  state : LetterState
  number : Nat
  chan : Chan
  profile : ProfileId
  priority : Option (Fin 4)
  stamp : Option (BitVec 32)
  aging : Nat
  flags : LetterFlags
  contentFrames : Nat
  instrFrames : Nat
  map : List Segment
deriving DecidableEq, Repr

/-- A take's last record, when it is a GAP record in the current block (R86). -/
structure LastGap where
  offset : Nat
  count : Nat
  patched : Bool
deriving DecidableEq, Repr

/-- States of a take that is not FREE (R86). -/
inductive TakeState where
  | writing
  | closed
deriving DecidableEq, Repr

/-- A take that is not FREE (R86). `view`, `recs` and `blkFirst` are the part's own view of the current block: the
payload bytes used, the records in it and the take frame index of its first frame (R90, R97, R125). -/
structure Take where
  state : TakeState
  owner : Slot
  first : Option BlockNo
  current : Option BlockNo
  blocks : Nat
  frames : Nat
  refs : Nat
  view : List Byte
  recs : Nat
  blkFirst : Nat
  lastGap : Option LastGap
  closeWrite : Bool
  stranded : Bool
deriving DecidableEq, Repr

/-! ### Take writer (R95 to R102) -/

/-- Where an item in the take writer's hand came from. -/
inductive Origin where
  | dropGap
  | frame
  | stopGap
deriving DecidableEq, Repr

/-- What a walk step waits for: its header read (`again` after one timeout, R93), or the ring write of the take's
first block, with the block that becomes first, absent for the last block (R92). -/
inductive WalkPhase where
  | header (again : Bool)
  | giveBack (next : Option BlockNo)
deriving DecidableEq, Repr

/-- What storing a frame waits for: the record or gap count write, the ring read of an allocation, the closing
header of the old block when the new one is in hand, the ring write of a block that could not be linked (R97, R98,
R101); or a walk step made because the ring was empty (R100). `again` tells that a write is being tried once more. -/
inductive StorePhase where
  | write (again : Bool)
  | allocate
  | closeOld (block : BlockNo) (again : Bool)
  | handBack
  | walk (take : TakeId) (phase : WalkPhase)
deriving DecidableEq, Repr

/-- An item or a stop gap in the take writer's hand. -/
structure Job where
  chan : Chan
  take : TakeId
  content : Content
  origin : Origin
  phase : StorePhase
deriving DecidableEq, Repr

/-- The one thing the take writer works on (R95). -/
inductive Hand where
  | job (j : Job)
  | close (take : TakeId) (again : Bool)
  | walk (take : TakeId) (phase : WalkPhase)
deriving DecidableEq, Repr

/-- The take writer: READY when `hand` is absent (R95). `walkFirst` tells that a walk step goes before the coder's
next item. -/
structure Writer where
  hand : Option Hand
  closeQueue : List TakeId
  gapTurns : List Chan
  walkList : List TakeId
  walkFirst : Bool
deriving DecidableEq, Repr

/-- The take writer after full reset (R95). -/
def Writer.reset : Writer where
  hand := none
  closeQueue := []
  gapTurns := []
  walkList := []
  walkFirst := false

/-- A channel's stretch count with its take, and the stop gap held with it, 0 for none (R102). -/
structure Stretch where
  take : TakeId
  count : Nat
  gap : Nat
deriving DecidableEq, Repr

/-- What the take writer reports to the channel control unit (R75, R78, R79). `headerFailed` tells that the write
that failed was the closing header of the current block; `lateFault` is the third case of R101. -/
inductive ReportKind where
  | stretchEnd
  | storeFull
  | long
  | writeFault (headerFailed : Bool)
  | lateFault (number : Nat)
deriving DecidableEq, Repr

/-- A report that the channel control unit has not taken yet. -/
structure Report where
  chan : Chan
  take : TakeId
  kind : ReportKind
deriving DecidableEq, Repr

/-! ### Store controller (R116 to R136) -/

/-- Who asked for a block read. -/
inductive Reader where
  | emitter
  | verify
deriving DecidableEq, Repr

/-- The accesses (R118). A ring access carries its slot; a block read carries what its requester expects (R126). -/
inductive Access where
  | recordWrite (block : BlockNo) (offset : Nat) (bytes : List Byte)
  | gapCountWrite (block : BlockNo) (offset : Nat) (count : Nat)
  | headerWrite (block : BlockNo) (bytes : List Byte)
  | headerRead (block : BlockNo)
  | ringRead (slot : Nat)
  | ringWrite (slot : Nat) (block : BlockNo)
  | blockRead (reader : Reader) (block : BlockNo) (take : TakeId) (first : Nat) (last : Bool)
  | peekRead (block offset : BitVec 16)
deriving DecidableEq, Repr

/-- Controller states: REBUILDING with the ring slot being written, BUSY with the access in progress and whether a
restart has discarded its outcome (06 opening, R123). -/
inductive CtlState where
  | unset
  | rebuilding (slot : Nat)
  | idle
  | busy (access : Access) (discarded : Bool)
deriving DecidableEq, Repr

/-- The store controller. `low` is set when the low state is BELOW (R133). -/
structure StoreCtl where
  st : CtlState
  waiting : List Access
  settings : StoreSettings
  head : Nat
  tail : Nat
  free : Nat
  low : Bool
deriving DecidableEq, Repr

/-! ### Letter emitter (R138 to R160) -/

/-- Emitter states (R138). -/
inductive EmState where
  | idle
  | settling
  | reading
  | sending
  | abortPending
deriving DecidableEq, Repr

/-- How a letter's stream is closed (R204). -/
inductive CloseStatus where
  | complete
  | storeFault
  | aborted
deriving DecidableEq, Repr

/-- Which record is being placed, or was placed last. -/
inductive Stage where
  | opening
  | sectionHead
  | frames
  | closing (status : CloseStatus)
deriving DecidableEq, Repr

/-- A record of a block: its bytes, and the frames it stands for (R124). -/
structure BlockRecord where
  bytes : List Byte
  frames : Nat
deriving DecidableEq, Repr

/-- The held block (R138). -/
structure HeldBlock where
  block : BlockNo
  take : TakeId
  first : Nat
  records : List BlockRecord
  next : BlockNo
  last : Bool
deriving DecidableEq, Repr

/-- A pending abort close (R158). -/
structure AbortClose where
  chan : Chan
  missing : Nat
  check : BitVec 16
deriving DecidableEq, Repr

/-- The emission state (R138). `rest` are the bytes of the record being placed that have not reached the cell
buffer, `restFrames` its frames, counted when its last byte is placed (R147, R148); `begun` tells that a cell of the
letter has begun sending (R158). -/
structure Emitter where
  st : EmState
  slot : Option Slot
  kind : SegKind
  entry : Nat
  placedIn : Nat
  held : Option HeldBlock
  buf : List Byte
  stage : Stage
  rest : List Byte
  restFrames : Nat
  placed : Nat
  sent : Nat
  runCheck : BitVec 16
  sentCheck : BitVec 16
  begun : Bool
  poolSeq : BitVec 4
  abort : Option AbortClose
  stamp : BitVec 32
deriving DecidableEq, Repr

/-- The emitter after full reset (R138, R160). -/
def Emitter.reset : Emitter where
  st := .idle
  slot := none
  kind := .instruction
  entry := 0
  placedIn := 0
  held := none
  buf := []
  stage := .opening
  rest := []
  restFrames := 0
  placed := 0
  sent := 0
  runCheck := 0xFFFF
  sentCheck := 0xFFFF
  begun := false
  poolSeq := 0
  abort := none
  stamp := 0

/-! ### Conditions (R184 to R191) -/

/-- The device conditions that hold state, in the order of R185's table. -/
inductive DevCond where
  | headerErr
  | syncLost
  | misroute
  | intakeOverflow
  | returnOverflow
  | storeLow
  | storeFull
  | storeTimeout
  | storeCheck
  | mgmtCheck
  | configADefault
  | configBDefault
  | configWriteFail
deriving DecidableEq, Repr

/-- A condition: LATCHED or CLEAR, and its new mark (R184). -/
structure Cond where
  latched : Bool
  fresh : Bool
deriving DecidableEq, Repr

/-- CLEAR, with no new mark. -/
def Cond.clear : Cond where
  latched := false
  fresh := false

/-- The channel conditions (R186). -/
structure ChanConds where
  cellLoss : Cond
  clip : Cond
  lowLevel : Cond
deriving DecidableEq, Repr

/-- All three CLEAR. -/
def ChanConds.clear : ChanConds where
  cellLoss := .clear
  clip := .clear
  lowLevel := .clear

/-! ### Operation contexts (R162) -/

/-- The tests a block can fail (R127, R175, R203). -/
inductive BlockTest where
  | mark
  | length
  | check
  | take
  | link
  | frame
  | records
  | frames
  | timeout
deriving DecidableEq, Repr

/-- A verify in flight (R174, R175): the take list from the take being read on, the index `k` of the block to be
read in that take, its number and expected first frame index, the counts, the first bad block, and whether the read
waits for a close write to end (R90). -/
structure VerifyCtx where
  tag : Byte
  slot : Slot
  number : Nat
  prior : LetterState
  todo : List TakeId
  k : Nat
  block : BlockNo
  first : Nat
  read : Nat
  bad : Nat
  firstBad : Option (BlockNo × BlockTest)
  waits : Bool
deriving DecidableEq, Repr

/-- A peek in flight (R179). -/
structure PeekCtx where
  tag : Byte
  block : BitVec 16
  offset : BitVec 16
deriving DecidableEq, Repr

/-- A save in flight (R182, R197): the pieces from the one being written on, as address and bytes, and whether the
part is polling for the end of the internal write. -/
structure SaveCtx where
  tag : Byte
  pieces : List (Nat × List Byte)
  polling : Bool
deriving DecidableEq, Repr

/-- The whole part. -/
structure State where
  pending : List Instr
  handed : List Instr
  startup : Startup
  cfgMem : Memory
  port : IntakePort
  ret : ReturnPath
  asm : Vector Assembler 24
  frames : List FrameEntry
  coder : Coder
  ctx : Vector CoderCtx 24
  profiles : Vector Profile 16
  chans : Vector Channel 24
  letters : Vector (Option Letter) 48
  letterNo : Nat
  takes : Vector (Option Take) 128
  writer : Writer
  stretch : Vector (Option Stretch) 24
  reports : List Report
  store : Memory
  ctl : StoreCtl
  emitter : Emitter
  steps : Vector Nat 48
  pool : Option (List Byte)
  hold : Bool
  dev : Vector Cond 13
  chanConds : Vector ChanConds 24
  errMask : Byte
  warnMask : Byte
  verify : Option VerifyCtx
  peek : Option PeekCtx
  save : Option SaveCtx
  restart : Option Byte
deriving DecidableEq, Repr

/-- The settings reported until CONFIG_LOAD ends (R136). -/
def StoreSettings.unset : StoreSettings where
  window := 0
  wait := .noWait
  mark := 0

/-- A channel's assembler after full reset (R50, R54). -/
def Assembler.reset : Assembler where
  buf := []
  fresh := true
  expected := none
  drops := 0

/-- The part right after full reset (the "State after each reset" tables; values the manual does not give: log 10,
log 24). -/
def State.reset : State where
  pending := []
  handed := []
  startup := { state := .powerOn, area := .a, attempt := 1, held := .unset }
  cfgMem := []
  port := { sync := .hunt, nextHeader := 0 }
  ret := { queue := [], line := none, seqs := Vector.replicate 25 0 }
  asm := Vector.replicate 24 .reset
  frames := []
  coder := .idle
  ctx := Vector.replicate 24 .unbound
  profiles := Vector.replicate 16 .default
  chans := Vector.replicate 24 .reset
  letters := Vector.replicate 48 none
  letterNo := 1
  takes := Vector.replicate 128 none
  writer := .reset
  stretch := Vector.replicate 24 none
  reports := []
  store := []
  ctl := { st := .unset, waiting := [], settings := .unset, head := 0, tail := 0, free := 0, low := false }
  emitter := .reset
  steps := Vector.replicate 48 0
  pool := none
  hold := false
  dev := Vector.replicate 13 .clear
  chanConds := Vector.replicate 24 .clear
  errMask := 0x3F
  warnMask := 0xFF
  verify := none
  peek := none
  save := none
  restart := none

end Sys2Proof.Machine
end

