-- ==== Sys2Proof/Machine/Flags.lean ====
section
/-!
DEFINITION. Conditions and the summary flags: latching, reporting, clearing, masks, E and W (R184 to R191).
-/

namespace Sys2Proof.Machine

/-- The place of a device condition in R185's table, which is its bit in a 16-bit field (R203). -/
def DevCond.index : DevCond → Fin 13
  | .headerErr => 0
  | .syncLost => 1
  | .misroute => 2
  | .intakeOverflow => 3
  | .returnOverflow => 4
  | .storeLow => 5
  | .storeFull => 6
  | .storeTimeout => 7
  | .storeCheck => 8
  | .mgmtCheck => 9
  | .configADefault => 10
  | .configBDefault => 11
  | .configWriteFail => 12

/-- LATCHED with its new mark set: what a latching event leaves, whatever stood before (R184). -/
def Cond.set : Cond where
  latched := true
  fresh := true

/-- A latching event of a device condition (R184). -/
def State.latch (s : State) (d : DevCond) : State := { s with dev := s.dev.set d.index .set }

/-- A latching event taken only if `b` holds. -/
def State.latchIf (s : State) (b : Bool) (d : DevCond) : State := if b then s.latch d else s

/-- A latching event of CELL_LOSS (R52). -/
def State.latchCellLoss (s : State) (c : Chan) : State :=
  { s with chanConds := s.chanConds.set c { s.chanConds[c] with cellLoss := .set } }

/-- A latching event of CLIP (R23). -/
def State.latchClip (s : State) (c : Chan) : State :=
  { s with chanConds := s.chanConds.set c { s.chanConds[c] with clip := .set } }

/-- A latching event of LOW_LEVEL (R25). -/
def State.latchLowLevel (s : State) (c : Chan) : State :=
  { s with chanConds := s.chanConds.set c { s.chanConds[c] with lowLevel := .set } }

/-- A device condition is LATCHED. -/
def State.latched (s : State) (d : DevCond) : Bool := s.dev[d.index].latched

/-- One or more of a channel's conditions are LATCHED. -/
def ChanConds.any (k : ChanConds) : Bool := k.cellLoss.latched || k.clip.latched || k.lowLevel.latched

/-- One or more of a channel's LATCHED conditions carry their new mark. -/
def ChanConds.anyFresh (k : ChanConds) : Bool :=
  (k.cellLoss.latched && k.cellLoss.fresh) || (k.clip.latched && k.clip.fresh) ||
    (k.lowLevel.latched && k.lowLevel.fresh)

/-- CHANNEL_COND as derived (R186). -/
def State.channelCond (s : State) : Bool := s.chanConds.toList.any ChanConds.any

/-- CHANNEL_COND's new mark as derived (R186). -/
def State.channelCondFresh (s : State) : Bool := s.chanConds.toList.any ChanConds.anyFresh

/-- E: an enabled error is LATCHED (R189, R190). -/
def State.errorFlag (s : State) : Bool :=
  (s.errMask.getLsbD 0 && s.latched .syncLost) || (s.errMask.getLsbD 1 && s.latched .intakeOverflow) ||
  (s.errMask.getLsbD 2 && s.latched .storeFull) || (s.errMask.getLsbD 3 && s.latched .storeTimeout) ||
  (s.errMask.getLsbD 4 && s.latched .storeCheck) || (s.errMask.getLsbD 5 && s.latched .configWriteFail)

/-- W: an enabled warning, CHANNEL_COND included, is LATCHED (R189, R190). -/
def State.warningFlag (s : State) : Bool :=
  (s.warnMask.getLsbD 0 && s.latched .headerErr) || (s.warnMask.getLsbD 1 && s.latched .misroute) ||
  (s.warnMask.getLsbD 2 && s.latched .returnOverflow) || (s.warnMask.getLsbD 3 && s.latched .storeLow) ||
  (s.warnMask.getLsbD 4 && s.latched .mgmtCheck) || (s.warnMask.getLsbD 5 && s.latched .configADefault) ||
  (s.warnMask.getLsbD 6 && s.latched .configBDefault) || (s.warnMask.getLsbD 7 && s.channelCond)

/-- The error mask as held: positions 6 and 7 name no condition and hold 0 (R189). -/
def errorMaskOf (b : Byte) : Byte := b &&& 0x3F

/-- Both masks replaced at once (R181, R195). -/
def State.setMasks (s : State) (error warning : Byte) : State :=
  { s with errMask := errorMaskOf error, warnMask := warning }

/-- A number from its bits, bit 0 first. -/
def bitsValue : List Bool → Nat
  | [] => 0
  | b :: rest => b.toNat + 2 * bitsValue rest

/-- The device condition states, CHANNEL_COND at bit 13 (R203). -/
def State.deviceStates (s : State) : Nat := bitsValue (s.dev.toList.map Cond.latched ++ [s.channelCond])

/-- The device new marks, CHANNEL_COND's at bit 13 (R203). -/
def State.deviceMarks (s : State) : Nat := bitsValue (s.dev.toList.map Cond.fresh ++ [s.channelCondFresh])

/-- A channel's conditions with their new marks: bits 0–2 the states, bits 4–6 the marks (R203). -/
def ChanConds.bits (k : ChanConds) : Nat :=
  bitsValue [k.cellLoss.latched, k.clip.latched, k.lowLevel.latched, false,
    k.cellLoss.fresh, k.clip.fresh, k.lowLevel.fresh]

/-- A condition once a reply has reported it: its new mark is cleared (R187). -/
def Cond.reported (k : Cond) : Cond := { k with fresh := false }

/-- A channel's conditions once a reply has reported them (R187). -/
def ChanConds.reported (k : ChanConds) : ChanConds where
  cellLoss := k.cellLoss.reported
  clip := k.clip.reported
  lowLevel := k.lowLevel.reported

/-- The device conditions are reported (R187). -/
def State.reportDevice (s : State) : State := { s with dev := s.dev.map Cond.reported }

/-- A channel's conditions are reported (R187). -/
def State.reportChannel (s : State) (c : Chan) : State :=
  { s with chanConds := s.chanConds.set c s.chanConds[c].reported }

/-- The channels listed by STATUS_READ: one or more conditions LATCHED (R180). -/
def State.listedChannels (s : State) : List Chan := (List.finRange 24).filter fun c => s.chanConds[c].any

/-- Every condition of every listed channel is reported (R187). A channel that is not listed has no condition
LATCHED. -/
def State.reportListed (s : State) : State :=
  { s with chanConds := s.chanConds.map fun k => if k.any then k.reported else k }

/-- STATUS_CLEAR of the device conditions named by a field (R188). Bits that name no condition, and CHANNEL_COND's,
are ignored (R180). -/
def State.clearDevice (s : State) (named : BitVec 16) : State :=
  { s with dev := Vector.ofFn fun i : Fin 13 => if named.getLsbD i.val then Cond.clear else s.dev[i] }

/-- The device conditions a STATUS_CLEAR clears unseen: LATCHED with the new mark set (R188). -/
def State.deviceUnseen (s : State) (named : BitVec 16) : Nat :=
  bitsValue ((List.finRange 13).map fun i =>
    named.getLsbD i.val && s.dev[i].latched && s.dev[i].fresh)

/-- STATUS_CLEAR of the conditions of one channel named by a field (R188). -/
def ChanConds.clearNamed (k : ChanConds) (named : Byte) : ChanConds where
  cellLoss := if named.getLsbD 0 then .clear else k.cellLoss
  clip := if named.getLsbD 1 then .clear else k.clip
  lowLevel := if named.getLsbD 2 then .clear else k.lowLevel

/-- The channel conditions a STATUS_CLEAR clears unseen (R188). -/
def ChanConds.unseen (k : ChanConds) (named : Byte) : Nat :=
  bitsValue [named.getLsbD 0 && k.cellLoss.latched && k.cellLoss.fresh,
    named.getLsbD 1 && k.clip.latched && k.clip.fresh,
    named.getLsbD 2 && k.lowLevel.latched && k.lowLevel.fresh]

/-- The conditions of one channel become what `f` makes of them. -/
def State.modChanConds (s : State) (c : Chan) (f : ChanConds → ChanConds) : State :=
  { s with chanConds := s.chanConds.set c (f s.chanConds[c]) }

end Sys2Proof.Machine
end

