-- ==== Sys2Proof/Machine/Ops.lean ====
section
/-!
DEFINITION. The named operations over the two external memories, the return path, and the tables of channels,
letters and takes, which every other file uses.
-/

namespace Sys2Proof.Machine

/-- What a command answers. -/
abbrev Result := Host.Outcome State Fault Refusal

/-! ### Memory -/

/-- The byte listed at an address, if any. -/
def Memory.get? : Memory → Nat → Option Byte
  | [], _ => none
  | (a, b) :: rest, n => if a = n then some b else Memory.get? rest n

/-- Write one byte, keeping the addresses strictly rising. -/
def Memory.put : Memory → Nat → Byte → Memory
  | [], n, b => [(n, b)]
  | (a, x) :: rest, n, b =>
    if n < a then (n, b) :: (a, x) :: rest
    else if n = a then (n, b) :: rest
    else (a, x) :: Memory.put rest n b

/-- Write a run of bytes from an address on. -/
def Memory.putBytes (m : Memory) (n : Nat) : List Byte → Memory
  | [] => m
  | b :: rest => Memory.putBytes (m.put n b) (n + 1) rest

/-- Write those bytes of a run whose mark is set; bytes beyond the marks are not written (R120, R198, log 7). -/
def Memory.putMarked (m : Memory) (n : Nat) : List Byte → List Bool → Memory
  | b :: rest, placed :: marks => Memory.putMarked (if placed then m.put n b else m) (n + 1) rest marks
  | _, _ => m

/-- Bytes changed from outside (log 6); addresses the memory does not have are ignored. -/
def Memory.change (m : Memory) (top : Nat) : List Host.Cell → Memory
  | [] => m
  | (a, b) :: rest => Memory.change (if a < top then m.put a b else m) top rest

/-- The canonical form: addresses strictly rising. No entry can equal what an unlisted address holds here, which is
no value. -/
abbrev Memory.wf (m : Memory) : Prop := m.Pairwise fun x y => x.1 < y.1

/-- A byte of the block store (R117): what was written there, or the free value (log 4). -/
def State.storeByte (s : State) (a : Nat) : Byte := (Memory.get? s.store a).getD (Config.storeByte a)

/-- A run of bytes of the block store. -/
def State.storeBytes (s : State) (a n : Nat) : List Byte := (List.range n).map fun i => s.storeByte (a + i)

/-- A byte of the configuration memory: what was written there, or the free value (log 5). -/
def State.configByte (s : State) (a : Nat) : Byte := (Memory.get? s.cfgMem a).getD (Config.configByte a)

/-- A run of bytes of the configuration memory. -/
def State.configBytes (s : State) (a n : Nat) : List Byte := (List.range n).map fun i => s.configByte (a + i)

/-- The store's bytes at these addresses differ, by causes outside the part (log 6). -/
def State.changeStore (s : State) (changed : List Host.Cell) : State :=
  { s with store := Memory.change s.store Config.storeTop changed }

/-! ### The return path (R47 to R49) -/

/-- The 68 bytes of an outbound intake cell whose sending begins now, E and W as they stand (R49, R201). -/
def State.wire (s : State) (cell : OutCell) : List Byte :=
  cellBytes cell.channel cell.kind cell.sequence (BitVec.ofNat 4 (bitsValue [s.warningFlag, s.errorFlag]))
    cell.used cell.payload

/-- If no cell is being sent, the head of the return queue begins sending (R49). -/
def State.startSend (s : State) : State :=
  match s.ret.line, s.ret.queue with
  | none, cell :: rest => { s with ret := { s.ret with queue := rest, line := some (s.wire cell) } }
  | _, _ => s

/-- A cell is offered to the return queue: it takes its channel's sequence number, and is queued or dropped
(R47, R48). -/
def State.offer (s : State) (channel : Fin 25) (kind used : Nat) (payload : List Byte) : State :=
  let cell : OutCell := { channel := channel.val, kind, sequence := s.ret.seqs[channel], used, payload }
  let numbered := { s with ret := { s.ret with seqs := s.ret.seqs.set channel (s.ret.seqs[channel] + 1) } }
  if s.ret.queue.length < Config.returnQueueSize then
    { numbered with ret := { numbered.ret with queue := numbered.ret.queue ++ [cell] } }.startSend
  else numbered.latch .returnOverflow

/-- The outbound sequence of a channel 1–24. -/
def outChannel (c : Chan) : Fin 25 := ⟨c.val + 1, by omega⟩

/-! ### Cells handed over -/

/-- A unit takes the cell that carries this command: it is no longer among those handed over (R45, log 3). -/
def State.takeCell (s : State) (i : Instr) : State := { s with handed := s.handed.erase i }

/-! ### Channels, letters and takes -/

/-- A channel record changed. -/
def State.modChan (s : State) (c : Chan) (f : Channel → Channel) : State :=
  { s with chans := s.chans.set c (f s.chans[c]) }

/-- An assembler changed. -/
def State.modAsm (s : State) (c : Chan) (f : Assembler → Assembler) : State :=
  { s with asm := s.asm.set c (f s.asm[c]) }

/-- A coder context changed. -/
def State.modCtx (s : State) (c : Chan) (f : CoderCtx → CoderCtx) : State :=
  { s with ctx := s.ctx.set c (f s.ctx[c]) }

/-- A letter changed; a FREE slot stays FREE. -/
def State.modLetter (s : State) (k : Slot) (f : Letter → Letter) : State :=
  { s with letters := s.letters.set k (s.letters[k].map f) }

/-- A slot set. -/
def State.setLetter (s : State) (k : Slot) (l : Option Letter) : State :=
  { s with letters := s.letters.set k l }

/-- A take changed; a FREE take stays FREE. -/
def State.modTake (s : State) (t : TakeId) (f : Take → Take) : State :=
  { s with takes := s.takes.set t (s.takes[t].map f) }

/-- A take entry set. -/
def State.setTake (s : State) (t : TakeId) (o : Option Take) : State :=
  { s with takes := s.takes.set t o }

/-- The take writer changed. -/
def State.modWriter (s : State) (f : Writer → Writer) : State := { s with writer := f s.writer }

/-- The emitter changed. -/
def State.modEmitter (s : State) (f : Emitter → Emitter) : State := { s with emitter := f s.emitter }

/-- The store controller changed. -/
def State.modCtl (s : State) (f : StoreCtl → StoreCtl) : State := { s with ctl := f s.ctl }

/-- A letter's length: content frames plus instruction frames (L1, R108). -/
def Letter.length (l : Letter) : Nat := l.contentFrames + l.instrFrames

/-- The letter a channel holds open. -/
def State.openLetter (s : State) (c : Chan) : Option Letter :=
  s.chans[c].slot.bind fun k => s.letters[k]

/-- The length reported for a channel: 0 when there is no slot (R58). -/
def State.chanLength (s : State) (c : Chan) : Nat := (s.openLetter c).elim 0 Letter.length

/-- The letter number reported for a channel: 0 when there is none (R63). -/
def State.chanLetterNo (s : State) (c : Chan) : Nat := (s.openLetter c).elim 0 Letter.number

/-- Take `t` is WRITING and is the take channel `c` is writing (R2, R5, R96). -/
def State.writes (s : State) (c : Chan) (t : TakeId) : Bool :=
  match s.chans[c].slot, s.takes[t] with
  | some k, some take => take.state = .writing && take.owner = k
  | _, _ => false

/-- The WRITING take of a channel, if it has one; it has at most one (L10, R94). -/
def State.writingTake (s : State) (c : Chan) : Option TakeId := (List.finRange 128).find? (s.writes c)

/-- The profile a channel is bound to; the default profile stands in for an UNBOUND channel, whose profile is never
read. -/
def State.profileOf (s : State) (c : Chan) : Profile :=
  match s.chans[c].profile with
  | some p => s.profiles[p]
  | none => .default

/-- The idle-stop time in seconds: 8 for a stored 0 (R27). -/
def Profile.idleSeconds (p : Profile) : Nat := if p.idle = 0 then 8 else p.idle.toNat

/-- The abandon time in minutes: 60 for a stored 0 (R27). -/
def Profile.abandonMinutes (p : Profile) : Nat := if p.abandon = 0 then 60 else p.abandon.toNat

/-- The lowest-numbered FREE slot (R105). -/
def State.freeSlot (s : State) : Option Slot := (List.finRange 48).find? fun k => s.letters[k].isNone

/-! ### ACK and STATE cells (R63, R82, R202) -/

/-- Channel state codes (R202). -/
def ChanState.code : ChanState → Nat
  | .unbound => 0
  | .idle => 1
  | .stopped => 2
  | .recording => 3
  | .stopping => 4

/-- ACK results (R63). -/
inductive AckResult where
  | done
  | state
  | unbound
  | noSlot
  | noTake
  | mapFull
  | storeFull
  | notReady
  | empty
  | busy
  | long
  | unknown
deriving DecidableEq, Repr

/-- ACK result codes (R202). -/
def AckResult.code : AckResult → Nat
  | .done => 0
  | .state => 1
  | .unbound => 2
  | .noSlot => 3
  | .noTake => 4
  | .mapFull => 5
  | .storeFull => 6
  | .notReady => 7
  | .empty => 8
  | .busy => 9
  | .long => 10
  | .unknown => 11

/-- Report codes of STATE cells (R202). -/
inductive StateReport where
  | autoStop
  | autoSubmit
  | storeFullStop
  | longStop
  | writeFault
  | emitted
deriving DecidableEq, Repr

/-- Report codes (R202). -/
def StateReport.code : StateReport → Nat
  | .autoStop => 1
  | .autoSubmit => 2
  | .storeFullStop => 3
  | .longStop => 4
  | .writeFault => 5
  | .emitted => 6

/-- An ACK payload (R202). -/
def ackPayload (code : Byte) (result : AckResult) (state : ChanState) (cursor length number : Nat) : List Byte :=
  [code] ++ be8 result.code ++ be8 state.code ++ be24 cursor ++ be24 length ++ be16 number

/-- A STATE payload (R202). -/
def statePayload (report : StateReport) (state : ChanState) (cursor length number : Nat) : List Byte :=
  be8 report.code ++ be8 state.code ++ be24 cursor ++ be24 length ++ be16 number

/-- An ACK with given cursor, length and number; the channel's state is the one held (R63). -/
def State.ackWith (s : State) (c : Chan) (code : Byte) (result : AckResult) (cursor length number : Nat) : State :=
  s.offer (outChannel c) 5 11 (ackPayload code result s.chans[c].state cursor length number)

/-- An ACK with the channel's values as they stand (R63). -/
def State.ack (s : State) (c : Chan) (code : Byte) (result : AckResult) : State :=
  s.ackWith c code result s.chans[c].cursor (s.chanLength c) (s.chanLetterNo c)

/-- A STATE cell with given length and number; state and cursor are the channel's (R82). -/
def State.offerState (s : State) (c : Chan) (report : StateReport) (length number : Nat) : State :=
  s.offer (outChannel c) 6 10 (statePayload report s.chans[c].state s.chans[c].cursor length number)

/-- The command code of a CONTROL command (R202). -/
abbrev codeRecord : Byte := 1
/-- STOP. -/
abbrev codeStop : Byte := 2
/-- SEEK. -/
abbrev codeSeek : Byte := 3
/-- EDITMODE. -/
abbrev codeEditmode : Byte := 4
/-- INSTRUCT. -/
abbrev codeInstruct : Byte := 5
/-- ERASE. -/
abbrev codeErase : Byte := 6
/-- SUBMIT. -/
abbrev codeSubmit : Byte := 7
/-- DISCARD. -/
abbrev codeDiscard : Byte := 8
/-- POSITION. -/
abbrev codePosition : Byte := 9

end Sys2Proof.Machine
end

