-- ==== Sys2Proof/Machine/Coding.lean ====
section
/-!
DEFINITION. The arithmetic of the frame coder: gain stage, level and class, gap frames, speech coding, gain control
and the low-level run (R11 to R25), and the decoder R18 speaks of.
-/

namespace Sys2Proof.Machine

/-- Saturated to −32768..32767 (00 "Numbers and positions"). -/
def saturate (v : Int) : Int := max (-32768) (min 32767 v)

/-- The gain stage before saturation: floor((x·g + 128) / 256) (R11). The divisor is positive, so `/` is the floor. -/
def gained (g : Nat) (x : Int) : Int := (x * g + 128) / 256

/-- A scaled sample (R11). -/
def scaled (g : Nat) (x : Int) : Int := saturate (gained g x)

/-- A sample is clipped when its result lay outside the range before saturation (R11). -/
def isClipped (g : Nat) (x : Int) : Bool := gained g x ≠ saturate (gained g x)

/-- The level A of a frame (R12). -/
def frameLevel (ys : List Int) : Nat := (ys.map Int.natAbs).sum / 128

/-- The largest code magnitude of a width (R16). -/
def codeMax (b : Nat) : Nat := 2 ^ (b - 1) - 1

/-- D: the largest absolute step, the first one taken from the predictor (R16). -/
def largestStep (p : Int) : List Int → Nat
  | [] => 0
  | y :: ys => max (y - p).natAbs (largestStep y ys)

/-- The exponent e: the smallest in 0..12 with D ≤ q_max·2^e, and 12 when there is none (R16). -/
def exponentFor (b d : Nat) : Nat := ((List.range 13).find? fun e => d ≤ codeMax b * 2 ^ e).getD 12

/-- The code before it is bounded: d at exponent 0, else d / 2^e rounded with halves away from zero (R17). -/
def roundedCode (e : Nat) (d : Int) : Int :=
  if e = 0 then d else d.sign * ((d.natAbs + 2 ^ (e - 1)) / 2 ^ e : Nat)

/-- A code brought into −q_max..q_max (R17). -/
def boundedCode (b : Nat) (c : Int) : Int := max (-(codeMax b : Int)) (min (codeMax b) c)

/-- The reconstructed sample of a code (R17). -/
def reconstruct (e : Nat) (p c : Int) : Int := saturate (p + c * 2 ^ e)

/-- What coding the samples gives: the codes, the final predictor, and whether a code was clamped (R17). -/
structure Coded where
  codes : List Int
  final : Int
  overload : Bool
deriving DecidableEq, Repr

/-- The samples coded in order from a predictor (R17). -/
def codeSamples (b e : Nat) : Int → List Int → Coded
  | p, [] => { codes := [], final := p, overload := false }
  | p, y :: ys =>
    let raw := roundedCode e (y - p)
    let c := boundedCode b raw
    let rest := codeSamples b e (reconstruct e p c) ys
    { codes := c :: rest.codes, final := rest.final, overload := raw ≠ c || rest.overload }

/-- The decoder's samples from P0, the exponent and the codes (R18). -/
def decodeSamplesFrom (e : Nat) : Int → List Int → List Int
  | _, [] => []
  | p, c :: cs => reconstruct e p c :: decodeSamplesFrom e (reconstruct e p c) cs

/-- A code as its `b` bits, most significant first (R204). -/
def codeBits (b : Nat) (c : Int) : List Bool := (List.range b).map fun i => (BitVec.ofInt b c).getMsbD i

/-- Bits packed into bytes, most significant first (R204). -/
def packBits : List Bool → List Byte
  | b7 :: b6 :: b5 :: b4 :: b3 :: b2 :: b1 :: b0 :: rest =>
    BitVec.ofNat 8 (bitsValue [b0, b1, b2, b3, b4, b5, b6, b7]) :: packBits rest
  | _ => []

/-- The codes as bytes (R204). -/
def packCodes (b : Nat) (codes : List Int) : List Byte := packBits (codes.flatMap (codeBits b))

/-- A SPEECH record (R19, R204). -/
def speechRecord (b e : Nat) (p0 : Int) (patched clipped overload : Bool) (codes : List Int) : List Byte :=
  [BitVec.ofNat 8 (0x30 + b), BitVec.ofNat 8 (e * 16 + bitsValue [overload, clipped, patched])]
    ++ wordBytes (BitVec.ofInt 16 p0) ++ packCodes b codes

/-- A GAP record (R204). -/
def gapRecord (count : Nat) (level : Byte) (patched : Bool) : List Byte :=
  [if patched then 0x21 else 0x20] ++ be8 count ++ [level]

/-- The AGC update of a loud frame in REGULATED mode: the first case that applies (R21). -/
def agcUpdate (pf : Profile) (g clipped level : Nat) : Nat :=
  if 8 ≤ clipped then max pf.gmin (g - max 1 (g / 8))
  else if 4 * level < 3 * pf.target then min pf.gmax (g + max 1 (g / 32))
  else if 5 * pf.target < 4 * level then max pf.gmin (g - max 1 (g / 16))
  else g

/-- The low-level run after a loud frame, before R25 (R24); the gain is the frame's working gain. -/
def lowRunAfter (pf : Profile) (g level run : Nat) : Nat :=
  if pf.target ≤ 2 * level then 0
  else if g = pf.gmax then run + 1
  else run

/-- The gain bounded by a profile: g0 in FIXED mode, else within g_min..g_max (R22, R31). -/
def Profile.boundGain (pf : Profile) (g : Nat) : Nat :=
  match pf.mode with
  | .fixed => pf.g0
  | .regulated => max pf.gmin (min pf.gmax g)

/-- A frame coded: the context it leaves, its gain not yet bounded by R22; the conditions it calls for; its item. -/
structure FrameResult where
  ctx : CoderCtx
  clip : Bool
  lowLevel : Bool
  content : Content
deriving DecidableEq, Repr

/-- The frame's scaled samples (R11). -/
def FrameEntry.scaledBy (f : FrameEntry) (g : Nat) : List Int := f.samples.map fun x => scaled g x.toInt

/-- The number of clipped samples (R11). -/
def FrameEntry.clippedBy (f : FrameEntry) (g : Nat) : Nat := f.samples.countP fun x => isClipped g x.toInt

/-- Loud: not all-filler, and T_gate is 0 or A ≥ T_gate (R13, R14). -/
def FrameEntry.loud (f : FrameEntry) (pf : Profile) (g : Nat) : Bool :=
  !f.allFiller && (pf.thr = 0 || pf.thr ≤ frameLevel (f.scaledBy g))

/-- The quiet run after the frame (R13, R14). -/
def FrameEntry.quietRun (f : FrameEntry) (pf : Profile) (ctx : CoderCtx) : Nat :=
  if f.loud pf ctx.g then 0 else min 255 (ctx.q + 1)

/-- The frame is classed SPEECH (R13, R14). -/
def FrameEntry.speech (f : FrameEntry) (pf : Profile) (ctx : CoderCtx) : Bool :=
  !f.allFiller && (f.loud pf ctx.g || f.quietRun pf ctx ≤ pf.hang)

/-- The predictor the frame is coded from: 0 behind a drop gap (R3). -/
def FrameEntry.startPredictor (f : FrameEntry) (ctx : CoderCtx) : Int := if f.drops = 0 then ctx.p else 0

/-- The noise level of a gap frame (R14, R15). -/
def FrameEntry.noise (f : FrameEntry) (g : Nat) : Byte :=
  if f.allFiller then 0 else BitVec.ofNat 8 (min 255 (frameLevel (f.scaledBy g) / 16))

/-- The gain after the frame, before R22 (R21). -/
def FrameEntry.gainAfter (f : FrameEntry) (pf : Profile) (g : Nat) : Nat :=
  if f.loud pf g && pf.mode = .regulated then agcUpdate pf g (f.clippedBy g) (frameLevel (f.scaledBy g)) else g

/-- The low-level run after the frame, before R25 (R24). -/
def FrameEntry.lowAfter (f : FrameEntry) (pf : Profile) (ctx : CoderCtx) : Nat :=
  if f.loud pf ctx.g then lowRunAfter pf ctx.g (frameLevel (f.scaledBy ctx.g)) ctx.low else ctx.low

/-- The exponent of a speech frame (R16). -/
def FrameEntry.exponent (f : FrameEntry) (pf : Profile) (ctx : CoderCtx) : Nat :=
  exponentFor pf.width (largestStep (f.startPredictor ctx) (f.scaledBy ctx.g))

/-- A speech frame's codes (R17). -/
def FrameEntry.coded (f : FrameEntry) (pf : Profile) (ctx : CoderCtx) : Coded :=
  codeSamples pf.width (f.exponent pf ctx) (f.startPredictor ctx) (f.scaledBy ctx.g)

/-- The item's content: a SPEECH record (R19), or one gap frame, patched when the frame is patched or all-filler
(R14, R15). -/
def FrameEntry.content (f : FrameEntry) (pf : Profile) (ctx : CoderCtx) : Content :=
  if f.speech pf ctx then
    .speech (speechRecord pf.width (f.exponent pf ctx) (f.startPredictor ctx) f.patched
      (0 < f.clippedBy ctx.g) (f.coded pf ctx).overload (f.coded pf ctx).codes) f.patched
  else .gaps 1 (f.noise ctx.g) (f.patched || f.allFiller)

/-- A frame coded with the profile and the working copy of the context taken with it (R3, R11 to R25). -/
def codeFrame (f : FrameEntry) (pf : Profile) (ctx : CoderCtx) : FrameResult :=
  let run := f.lowAfter pf ctx
  { ctx :=
      { g := f.gainAfter pf ctx.g
        p := if f.speech pf ctx then (f.coded pf ctx).final else 0
        q := f.quietRun pf ctx
        low := if f.loud pf ctx.g && 250 ≤ run then 0 else run }
    clip := f.loud pf ctx.g && 8 ≤ f.clippedBy ctx.g
    lowLevel := f.loud pf ctx.g && 250 ≤ run
    content := f.content pf ctx }

end Sys2Proof.Machine
end

