-- ==== Sys2Proof/Machine/Map.lean ====
section
/-!
DEFINITION. Edits of a map, as a list of segment entries: record start (R109), commit and overwrite (R110, R111),
erase (R113).
-/

namespace Sys2Proof.Machine

/-- The frames of the entries of one kind. -/
def kindFrames (kind : SegKind) (m : List Segment) : Nat :=
  ((m.filter fun e => e.kind = kind).map Segment.count).sum

/-- The take of the entry that a position lies strictly inside, if it does (R108). -/
def insideTake : List Segment → Nat → Option TakeId
  | [], _ => none
  | e :: rest, p =>
    if p = 0 then none
    else if p < e.count then some e.take
    else insideTake rest (p - e.count)

/-- The record-start edit: the entry at `p` is split if `p` lies strictly inside it, and the new entry is inserted at
`p` (R109). -/
def insertAt : List Segment → Nat → Segment → List Segment
  | [], _, new => [new]
  | e :: rest, p, new =>
    if p = 0 then new :: e :: rest
    else if p < e.count then
      { e with count := p } :: new :: { e with start := e.start + p, count := e.count - p } :: rest
    else e :: insertAt rest (p - e.count) new

/-- Free entries the record-start edit needs: 2 strictly inside an entry, else 1 (R65). -/
def entriesNeeded (m : List Segment) (p : Nat) : Nat := if (insideTake m p).isSome then 2 else 1

/-- The entry after the open segment trimmed by one frame at its front, and removed when empty (R111). -/
def trimFirst : List Segment → List Segment
  | [] => []
  | e :: rest => if e.count ≤ 1 then rest else { e with start := e.start + 1, count := e.count - 1 } :: rest

/-- A frame committed to the entry that names take `t`; with `trim`, the entry after it is trimmed (R110, R111). -/
def commitFrame (t : TakeId) (trim : Bool) : List Segment → List Segment
  | [] => []
  | e :: rest =>
    if e.take = t then { e with count := e.count + 1 } :: (if trim then trimFirst rest else rest)
    else e :: commitFrame t trim rest

/-- The entry after the one that names take `t`. -/
def entryAfter (t : TakeId) : List Segment → Option Segment
  | [] => none
  | e :: rest => if e.take = t then rest.head? else entryAfter t rest

/-- The entry that names take `t`. -/
def entryOf (t : TakeId) (m : List Segment) : Option Segment := m.find? fun e => e.take = t

/-- The entries without the one that names take `t` (R112). -/
def removeEntry (t : TakeId) (m : List Segment) : List Segment := m.eraseP fun e => e.take = t

/-- What an erase of the letter positions from `c` up to `d` leaves of an entry whose first frame lies at `a`
(R113). An entry that the range does not touch is left as it is. -/
def eraseEntry (a c d : Nat) (e : Segment) : List Segment :=
  let before := min e.count (c - a)
  let after := min e.count (a + e.count - d)
  if e.count ≤ before + after then [e]
  else
    (if before = 0 then [] else [{ e with count := before }]) ++
    (if after = 0 then [] else [{ e with start := e.start + (e.count - after), count := after }])

/-- An erase of the positions from `c` up to `d`, the first entry lying at `a` (R113). -/
def eraseFrom : Nat → Nat → Nat → List Segment → List Segment
  | _, _, _, [] => []
  | a, c, d, e :: rest => eraseEntry a c d e ++ eraseFrom (a + e.count) c d rest

/-- The takes of the entries an erase removes, in map order (R113). -/
def erasedTakes : Nat → Nat → Nat → List Segment → List TakeId
  | _, _, _, [] => []
  | a, c, d, e :: rest =>
    (if (eraseEntry a c d e).isEmpty then [e.take] else []) ++ erasedTakes (a + e.count) c d rest

/-- The take of the entry an erase splits into two, if it does (R70, R113). -/
def splitTake : Nat → Nat → Nat → List Segment → Option TakeId
  | _, _, _, [] => none
  | a, c, d, e :: rest =>
    if (eraseEntry a c d e).length = 2 then some e.take else splitTake (a + e.count) c d rest

end Sys2Proof.Machine
end

