-- ==== Sys2Proof/Machine/Takes.lean ====
section
/-!
DEFINITION. The take table and the letter table at work: reference counts, closing and freeing takes, opening,
queuing and freeing letters, the edits of an open letter (R86 to R94, R103 to R115, R139).
-/

namespace Sys2Proof.Machine

/-! ### Takes -/

/-- Payload bytes unused in the current block; 0 when the take holds no block (R86). -/
def Take.freeBytes (t : Take) : Nat := if t.current.isSome then 500 - t.view.length else 0

/-- A take at its issue, with its reference count 1 from the open segment (R87, R109). -/
def Take.issued (owner : Slot) : Take where
  state := .writing
  owner := owner
  first := none
  current := none
  blocks := 0
  frames := 0
  refs := 1
  view := []
  recs := 0
  blkFirst := 0
  lastGap := none
  closeWrite := false
  stranded := false

/-- A frame in the coder's hand names the take (R1, R87). -/
def Coder.names (k : Coder) (t : TakeId) : Bool :=
  match k with
  | .idle => false
  | .coding entry _ _ => entry.take = t
  | .delivering take _ => take = t

/-- The item in the take writer's hand names the take (R87, R95). -/
def Writer.itemNames (w : Writer) (t : TakeId) : Bool :=
  match w.hand with
  | some (.job j) => j.take = t
  | _ => false

/-- A take id is eligible for issue (R87). -/
def State.eligible (s : State) (t : TakeId) : Bool :=
  s.takes[t].isNone && s.frames.all (fun f => f.take ≠ t) && !s.coder.names t && !s.writer.itemNames t

/-- The lowest-numbered eligible take id (R87). -/
def State.eligibleTake (s : State) : Option TakeId := (List.finRange 128).find? s.eligible

/-- A report other than a late fault can have an effect only while its take is WRITING (R76, R78). -/
def Report.ofWriting (r : Report) : Bool :=
  match r.kind with
  | .lateFault _ => false
  | _ => true

/-- A take is no longer WRITING: the reports that name it can have no effect any more and are dropped (log 15). -/
def State.retireReports (s : State) (t : TakeId) : State :=
  { s with reports := s.reports.filter fun r => !(r.ofWriting && r.take = t) }

/-- The closing header of the take's current block has failed twice, so that its close makes no close write
(R101, log 16). -/
def State.headerFailed (s : State) (t : TakeId) : Bool :=
  s.reports.any fun r => r.take = t && r.kind = .writeFault true

/-- A take that is CLOSED with no reference, no close write outstanding and not stranded is freed: it enters the walk
list, or becomes FREE at once when it holds no block (R91). -/
def State.freeIfDone (s : State) (t : TakeId) : State :=
  match s.takes[t] with
  | some take =>
    if take.state = .closed ∧ take.refs = 0 ∧ take.closeWrite = false ∧ take.stranded = false then
      match take.first with
      | none => s.setTake t none
      | some _ => if t ∈ s.writer.walkList then s
        else s.modWriter fun w => { w with walkList := w.walkList ++ [t] }
    else s
  | none => s

/-- An entry that names the take is removed (R88). At count 0 a WRITING take, whose open segment it was, is closed
and freed at once with no close write (R89); a CLOSED one is freed (R91). -/
def State.dropRef (s : State) (t : TakeId) : State :=
  match s.takes[t] with
  | some take =>
    if take.refs ≤ 1 then
      ((s.setTake t (some { take with refs := 0, state := .closed })).retireReports t).freeIfDone t
    else s.setTake t (some { take with refs := take.refs - 1 })
  | none => s

/-- Several entries are removed in order. -/
def State.dropRefs (s : State) : List TakeId → State
  | [] => s
  | t :: rest => (s.dropRef t).dropRefs rest

/-- An entry that names the take is created (R88). -/
def State.addRef (s : State) (t : TakeId) : State := s.modTake t fun take => { take with refs := take.refs + 1 }

/-- A WRITING take is closed (R89): with a reference its close write becomes outstanding when it holds a block
(R90). -/
def State.closeTake (s : State) (t : TakeId) : State :=
  match s.takes[t] with
  | some take =>
    if take.state = .writing then
      let asks := decide (take.refs ≠ 0) && take.current.isSome && !s.headerFailed t
      let closed := (s.setTake t (some { take with state := .closed, closeWrite := asks })).retireReports t
      (if asks then closed.modWriter fun w => { w with closeQueue := w.closeQueue ++ [t] } else closed).freeIfDone t
    else s
  | none => s

/-- Continuation cleared, which closes a WRITING take of the channel (R60). -/
def State.clearCont (s : State) (c : Chan) : State :=
  let cleared := s.modChan c fun ch => { ch with cont := false }
  match s.writingTake c with
  | some t => cleared.closeTake t
  | none => cleared

/-! ### Letters -/

/-- The number given from a counter value, `i` numbers on, wrapping from 65535 to 1 (R107). -/
def numberFrom (counter i : Nat) : Nat := (counter - 1 + i) % 65535 + 1

/-- A slot that is not FREE holds the number. -/
def State.holdsNumber (s : State) (n : Nat) : Bool :=
  s.letters.toList.any fun l => l.any fun letter => letter.number = n

/-- The letter number the next letter open gives: the first from the counter on that no slot holds. At most 48 are
held, so one of 49 is free (R107). -/
def State.nextNumber (s : State) : Nat :=
  (((List.range 49).map (numberFrom s.letterNo)).find? fun n => !s.holdsNumber n).getD s.letterNo

/-- A letter at its opening (R105). -/
def Letter.opening (number : Nat) (c : Chan) (profile : ProfileId) : Letter where
  state := .opened
  number := number
  chan := c
  profile := profile
  priority := none
  stamp := none
  aging := 0
  flags := { unattended := false, patched := false, lowLevel := false, writeFault := false, verifyFailed := false }
  contentFrames := 0
  instrFrames := 0
  map := []

/-- Letter open in a given FREE slot (R64, R105, R107, R9). -/
def State.openLetterIn (s : State) (c : Chan) (k : Slot) : State :=
  let number := s.nextNumber
  let opened := s.setLetter k (some (.opening number c (s.chans[c].profile.getD 0)))
  let counted := { opened with letterNo := numberFrom number 1 }
  (counted.modChan c fun ch =>
      { ch with slot := some k, cursor := 0, mode := .insert, instruct := false, cont := false }).modCtx c
    fun x => { x with g := (s.profileOf c).g0, low := 0 }

/-- Freeing a letter: its entries are removed in map order, then the slot becomes FREE (R114). -/
def State.freeLetter (s : State) (k : Slot) : State :=
  match s.letters[k] with
  | some l => (s.dropRefs (l.map.map Segment.take)).setLetter k none
  | none => s

/-- The aging step count of a slot is set to 0 (R139, R152, R157). -/
def State.zeroSteps (s : State) (k : Slot) : State := { s with steps := s.steps.set k 0 }

/-- Queuing: a new submit stamp, aging counts 0; the stamp counter advances (R139). -/
def State.queueLetter (s : State) (k : Slot) (f : Letter → Letter) : State :=
  ((s.modLetter k fun l =>
      { f l with state := .queued, stamp := some s.emitter.stamp, aging := 0 }).zeroSteps k).modEmitter
    fun e => { e with stamp := e.stamp + 1 }

/-- The channel becomes IDLE with its slot, cursor, continuation, pending action and timers cleared (R71, R73). -/
def State.toIdle (s : State) (c : Chan) : State :=
  s.modChan c fun ch =>
    { ch with
      state := .idle, slot := none, cursor := 0, cont := false, pending := .nothing, idleTimer := none
      abandonTimer := none }

/-- The channel enters STOPPED: its abandon timer is started with the time of its profile (R81). -/
def State.toStopped (s : State) (c : Chan) : State :=
  s.modChan c fun ch =>
    { ch with state := .stopped, idleTimer := none, abandonTimer := some (s.profileOf c).abandonMinutes }

/-- A letter is submitted, or freed when it is empty, and the channel becomes IDLE (R71, R81). -/
def State.submitLetter (s : State) (c : Chan) (priority : Fin 4) (unattended : Bool) : State :=
  let closed := s.clearCont c
  let left := match closed.chans[c].slot with
    | some k =>
      if closed.chanLength c = 0 then closed.freeLetter k
      else closed.queueLetter k fun l =>
        { l with priority := some priority, flags := { l.flags with unattended := l.flags.unattended || unattended } }
    | none => closed
  left.toIdle c

/-! ### Edits of an open letter -/

/-- A letter's map replaced, its sums following (R108). -/
def Letter.withMap (l : Letter) (m : List Segment) : Letter :=
  { l with
    map := m
    contentFrames := l.contentFrames + kindFrames .content m - kindFrames .content l.map
    instrFrames := l.instrFrames + kindFrames .instruction m - kindFrames .instruction l.map }

/-- The record-start edit in slot `k` with the take `t` (R87, R109, R8). -/
def State.recordStart (s : State) (c : Chan) (k : Slot) (t : TakeId) : State :=
  let ch := s.chans[c]
  let m := (s.letters[k].map Letter.map).getD []
  let new : Segment :=
    { take := t, start := 0, count := 0, kind := if ch.instruct then .instruction else .content }
  let issued := s.setTake t (some (.issued k))
  let counted := match insideTake m ch.cursor with
    | some u => issued.addRef u
    | none => issued
  (counted.modLetter k fun l => l.withMap (insertAt m ch.cursor new)).modCtx c fun x => { x with p := 0, q := 255 }

/-- The open segment is removed when it holds no frame, which closes and frees its take (R112). Otherwise nothing
changes. -/
def State.dropEmptySegment (s : State) (c : Chan) (t : TakeId) : State :=
  match s.chans[c].slot with
  | some k =>
    match (s.letters[k].map Letter.map).bind (entryOf t) with
    | some e => if e.count = 0 then (s.modLetter k fun l => { l with map := removeEntry t l.map }).dropRef t else s
    | none => s
  | none => s

/-- Further frames a channel's letter can take (R97). -/
def State.commitRoom (s : State) (c : Chan) : Nat :=
  match s.chans[c].mode with
  | .insert => Config.maxLength - s.chanLength c
  | .overwrite => Config.maxLength - s.chans[c].cursor

/-- A stored frame of take `t` joins the channel's letter (R110, R111). -/
def State.commit (s : State) (c : Chan) (t : TakeId) (patched : Bool) : State :=
  match s.chans[c].slot with
  | some k =>
    match s.letters[k] with
    | some l =>
      let ch := s.chans[c]
      let trim := decide (ch.mode = .overwrite) && decide (ch.cursor < l.length)
      let l' := { l.withMap (commitFrame t trim l.map) with
        flags := { l.flags with patched := l.flags.patched || patched } }
      let committed := (s.setLetter k (some l')).modChan c fun ch => { ch with cursor := ch.cursor + 1 }
      match entryAfter t l.map with
      | some f => if trim && f.count ≤ 1 then committed.dropRef f.take else committed
      | none => committed
    | none => s
  | none => s

/-- The erase of `m` frames at the cursor, continuation already cleared (R113). -/
def State.eraseFrames (s : State) (c : Chan) (m : Nat) : State :=
  match s.chans[c].slot with
  | some k =>
    match s.letters[k] with
    | some l =>
      let p := s.chans[c].cursor
      let edited := s.setLetter k (some (l.withMap (eraseFrom 0 p (p + m) l.map)))
      let split := match splitTake 0 p (p + m) l.map with
        | some t => edited.addRef t
        | none => edited
      split.dropRefs (erasedTakes 0 p (p + m) l.map)
    | none => s
  | none => s

/-- A letter gains WRITE_FAULT (R101, R106). -/
def State.flagWriteFault (s : State) (k : Slot) : State :=
  s.modLetter k fun l => { l with flags := { l.flags with writeFault := true } }

end Sys2Proof.Machine
end

