-- ==== Sys2Proof/Machine/CoderEvents.lean ====
section
/-!
DEFINITION. The frame coder's steps: CODER_TAKE_FRAME, CODER_ARITHMETIC_DONE (R1 to R5, R22 to R25).
-/

namespace Sys2Proof.Machine

/-- An entry leaves the queue: coded with the context and profile as they stand, or discarded whole when its take is
no longer the one its channel is writing (R1, R2, R5, R7). -/
def State.takeFrame (s : State) (f : FrameEntry) : State :=
  if s.writes f.chan f.take then { s with coder := .coding f s.ctx[f.chan] (s.profileOf f.chan) } else s

/-- CODER_TAKE_FRAME: the IDLE coder removes the oldest entry (R1, R2). -/
def execCoderTakeFrame (s : State) : Result :=
  .next (match s.coder, s.frames with
    | .idle, f :: rest => { s with frames := rest }.takeFrame f
    | _, _ => s)

/-- The letter of the take gains LOW_LEVEL (R25, R106). -/
def State.flagLowLevel (s : State) (t : TakeId) : State :=
  match s.takes[t] with
  | some take => s.modLetter take.owner fun l => { l with flags := { l.flags with lowLevel := true } }
  | none => s

/-- The write-back: the context with its gain bounded by the profile as it stands, CLIP, LOW_LEVEL with the letter's
flag (R5, R22, R23, R25). -/
def State.writeBack (s : State) (f : FrameEntry) (r : FrameResult) : State :=
  let written := s.modCtx f.chan fun _ => { r.ctx with g := (s.profileOf f.chan).boundGain r.ctx.g }
  let clipped := if r.clip then written.latchClip f.chan else written
  if r.lowLevel then (clipped.latchLowLevel f.chan).flagLowLevel f.take else clipped

/-- The items of a frame: the drop gap of R3, if any, then the frame's own (R4). -/
def frameItems (f : FrameEntry) (r : FrameResult) : List Item :=
  (if f.drops = 0 then [] else
    [{ chan := f.chan, take := f.take, content := .gaps f.drops 0 true, dropGap := true }]) ++
  [{ chan := f.chan, take := f.take, content := r.content, dropGap := false }]

/-- The arithmetic of a frame is complete (R4, R5). -/
def State.frameCoded (s : State) (f : FrameEntry) (ctx : CoderCtx) (pf : Profile) : State :=
  let r := codeFrame f pf ctx
  { (if s.writes f.chan f.take then s.writeBack f r else s) with coder := .delivering f.take (frameItems f r) }

/-- CODER_ARITHMETIC_DONE (R5). -/
def execCoderArithmeticDone (s : State) : Result :=
  .next (match s.coder with
    | .coding f ctx pf => s.frameCoded f ctx pf
    | _ => s)

end Sys2Proof.Machine
end

