-- ==== Sys2Proof/Machine/Intake.lean ====
section
/-!
DEFINITION. The intake port and the frame assembler: HUNT_BYTE_TEST, PRESYNC_HEADER, INTAKE_CELL, RETURN_CELL_END,
AUDIO (R40 to R54).
-/

namespace Sys2Proof.Machine

/-! ### Cell alignment (R40 to R45) -/

/-- The port's sync state, and how many bytes on the next header is tested. -/
def State.moveSync (s : State) (sync : Sync) (bytes : Nat) : State :=
  { s with port := { sync := sync, nextHeader := s.port.nextHeader + bytes } }

/-- A delivered cell: its used count is tested, then it is routed and handed over, or discarded (R44, R45). -/
def State.deliver (s : State) (cell : List Byte) : State :=
  match routeCell cell with
  | .badHeader => s
  | .badUsed => s.latch .headerErr
  | .misrouted => s.latch .misroute
  | .routed i => { s with handed := s.handed ++ [i] }

/-- HUNT_BYTE_TEST: four bytes are tested as a header (R40). -/
def execHuntByteTest (b0 b1 b2 b3 : Byte) (s : State) : Result :=
  .next (match s.port.sync with
    | .hunt => if headerGood [b0, b1, b2, b3] then s.moveSync (.presync 1) 68 else s.moveSync .hunt 1
    | _ => s)

/-- PRESYNC_HEADER: the candidate alignment is confirmed or given up; the third valid header's cell is the first
delivered (R41). -/
def execPresyncHeader (cell : Vector Byte 68) (s : State) : Result :=
  .next (match s.port.sync with
    | .presync n =>
      if headerGood cell.toList then
        if n < 2 then s.moveSync (.presync (n + 1)) 68 else (s.moveSync (.sync 0) 68).deliver cell.toList
      else s.moveSync .hunt 1
    | _ => s)

/-- A bad header in SYNC; the fourth in a row loses the alignment (R42). -/
def State.badHeader (s : State) (bad : Nat) : State :=
  let latched := s.latch .headerErr
  if bad + 1 < 4 then latched.moveSync (.sync (bad + 1)) 68 else (latched.latch .syncLost).moveSync .hunt 1

/-- INTAKE_CELL: a cell at a boundary in SYNC (R42, R44, R45). -/
def execIntakeCell (cell : Vector Byte 68) (s : State) : Result :=
  .next (match s.port.sync with
    | .sync bad =>
      if headerGood cell.toList then (s.moveSync (.sync 0) 68).deliver cell.toList else s.badHeader bad
    | _ => s)

/-- RETURN_CELL_END: the outbound cell ends, and the next of the queue begins (R49). -/
def execReturnCellEnd (s : State) : Result :=
  .next (if s.ret.line.isSome then { s with ret := { s.ret with line := none } }.startSend else s)

/-! ### Assembling frames (R50 to R54) -/

/-- The samples of a position (03, "Assembling frames"). -/
def Piece.samples : Piece → List Sample
  | .received samples => samples.toList
  | _ => List.replicate 32 0

/-- The position holds a received cell. -/
def Piece.isReceived : Piece → Bool
  | .received _ => true
  | _ => false

/-- A completed frame as a queue entry, with its two marks and the drop count (R53). -/
def frameOf (c : Chan) (t : TakeId) (pieces : List Piece) (drops : Nat) : FrameEntry where
  chan := c
  take := t
  samples := pieces.flatMap Piece.samples
  patched := decide (Piece.filler ∈ pieces)
  allFiller := decide (Piece.filler ∈ pieces) && !pieces.any Piece.isReceived
  drops := drops

/-- A completed frame is offered to the frame queue: queued with the drop count, or dropped (R53, R54). Frames
complete only while the channel's take is WRITING; without one the frame is gone (log 30). -/
def State.offerFrame (s : State) (c : Chan) (pieces : List Piece) : State :=
  match s.writingTake c with
  | some t =>
    if s.frames.length < Config.frameQueueSize then
      { s with frames := s.frames ++ [frameOf c t pieces s.asm[c].drops] }.modAsm c fun a => { a with drops := 0 }
    else (s.modAsm c fun a => { a with drops := min 255 (a.drops + 1) }).latch .intakeOverflow
  | none => s

/-- An item is placed at position `k`: behind head padding when it is the first since RECORDING was entered, else
behind what the buffer holds. A full buffer is a frame (R51, R52). -/
def State.placePiece (s : State) (c : Chan) (k : Nat) (piece : Piece) : State :=
  let before := if s.asm[c].fresh then List.replicate k Piece.pad else s.asm[c].buf
  let pieces := before ++ [piece]
  if pieces.length < 4 then s.modAsm c fun a => { a with buf := pieces, fresh := false }
  else (s.modAsm c fun a => { a with buf := [], fresh := false }).offerFrame c pieces

/-- Fillers for `n` lost sequence numbers from `e` on (R52). -/
def State.placeFillers (s : State) (c : Chan) (e : BitVec 4) : Nat → State
  | 0 => s
  | n + 1 => State.placeFillers (s.placePiece c (e.toNat % 4) .filler) c (e + 1) n

/-- The lost cells that a cell with sequence `seq` shows (R50). -/
def State.lostCells (s : State) (c : Chan) (seq : BitVec 4) : Nat :=
  match s.asm[c].expected with
  | none => 0
  | some e => (seq - e).toNat

/-- The idle-stop timer is started with the time of the profile as it stands (R80). -/
def State.startIdleTimer (s : State) (c : Chan) : State :=
  s.modChan c fun ch => { ch with idleTimer := some (s.profileOf c).idleSeconds }

/-- The expected sequence moves past the cell (R50). -/
def State.expectAfter (s : State) (c : Chan) (seq : BitVec 4) : State :=
  s.modAsm c fun a => { a with expected := some (seq + 1) }

/-- An accepted cell: CELL_LOSS and fillers for the cells it shows lost, then the cell itself, and the idle-stop timer
anew (R51, R52, R80). -/
def State.acceptAudio (s : State) (c : Chan) (seq : BitVec 4) (samples : Vector Sample 32) (lost : Nat) : State :=
  let shown := if lost = 0 then s else s.latchCellLoss c
  let filled := shown.placeFillers c (seq - BitVec.ofNat 4 lost) lost
  (filled.placePiece c (seq.toNat % 4) (.received samples)).startIdleTimer c

/-- An AUDIO cell at the frame assembler (R46, R50, R51). -/
def State.audioTaken (s : State) (c : Chan) (seq : BitVec 4) (samples : Vector Sample 32) : State :=
  if s.startup.state ≠ .ready then s
  else if s.chans[c].state = .unbound then s.latch .misroute
  else if s.chans[c].state = .recording then
    (s.expectAfter c seq).acceptAudio c seq samples (s.lostCells c seq)
  else s.expectAfter c seq

/-- AUDIO (R46, R50 to R54). -/
def execAudio (c : Chan) (seq : BitVec 4) (samples : Vector Sample 32) (s : State) : Result :=
  .next ((s.takeCell (.audio c seq samples)).audioTaken c seq samples)

end Sys2Proof.Machine
end

