-- ==== Sys2Proof/Machine/Operands.lean ====
section
/-!
DEFINITION. Operand forms of the commands: profiles and areas as bytes (R27, R29, R192), the argument bytes of
management commands (R163, R203), the arguments of SEEK, ERASE and SUBMIT (R68, R70, R71).
-/

namespace Sys2Proof.Machine

/-! ### Profiles as bytes (R192) -/

/-- The code of an AGC mode (R192). -/
def AgcMode.code : AgcMode → Nat
  | .fixed => 0
  | .regulated => 1

/-- The 16 bytes of a profile (R192). -/
def Profile.bytes (p : Profile) : List Byte :=
  be8 p.width ++ be8 p.hang ++ be16 p.thr ++ be8 p.mode.code ++ be8 p.prio.val ++ be16 p.g0 ++ be16 p.target
    ++ be16 p.gmin ++ be16 p.gmax ++ [p.idle, p.abandon]

/-- Every field lies in its range, and the gains are ordered (R27, R29). -/
def Profile.valid (p : Profile) : Bool :=
  (p.width = 3 || p.width = 4 || p.width = 5) && p.thr ≤ 4095 && p.hang ≤ 31 &&
  16 ≤ p.gmin && p.gmin ≤ p.g0 && p.g0 ≤ p.gmax && p.gmax ≤ 1023 && 64 ≤ p.target && p.target ≤ 8191

/-- The AGC mode a code names (R192). -/
def agcModeOf (b : Byte) : Option AgcMode :=
  if b = 0 then some .fixed else if b = 1 then some .regulated else none

/-- The fields of 16 profile bytes, with their mode and priority named (R192). -/
def profileFields (b : List Byte) (mode : AgcMode) (prio : Fin 4) : Profile where
  width := (byteAt b 0).toNat
  thr := (wordAt b 2).toNat
  hang := (byteAt b 1).toNat
  mode := mode
  g0 := (wordAt b 6).toNat
  target := (wordAt b 8).toNat
  gmin := (wordAt b 10).toNat
  gmax := (wordAt b 12).toNat
  prio := prio
  idle := byteAt b 14
  abandon := byteAt b 15

/-- The profile that 16 bytes hold, absent when it fails a test of R29. -/
def Profile.read (b : List Byte) : Option Profile :=
  match agcModeOf (byteAt b 4) with
  | some mode =>
    if h : (byteAt b 5).toNat < 4 then
      let p := profileFields b mode ⟨(byteAt b 5).toNat, h⟩
      if p.valid then some p else none
    else none
  | none => none

/-! ### The two areas (R192) -/

/-- The code of a wait mode (R192). -/
def WaitMode.code : WaitMode → Nat
  | .noWait => 0
  | .oneWait => 1
  | .onReady => 2

/-- The wait mode a code names (R192). -/
def waitModeOf (b : Byte) : Option WaitMode :=
  if b = 0 then some .noWait else if b = 1 then some .oneWait else if b = 2 then some .onReady else none

/-- What area A holds (R192). -/
structure AreaA where
  settings : StoreSettings
  error : Byte
  warning : Byte
deriving DecidableEq, Repr

/-- The defaults of area A (R194). -/
def AreaA.default : AreaA where
  settings := { window := 0, wait := .oneWait, mark := 512 }
  error := 0xFF
  warning := 0xFF

/-- The contents of area A, absent when they are not valid (R192). -/
def AreaA.read (b : List Byte) : Option AreaA :=
  match waitModeOf (byteAt b 2) with
  | some wait =>
    if h : byteAt b 0 = 1 ∧ (byteAt b 1).toNat < 4 then
      some
        { settings := { window := ⟨(byteAt b 1).toNat, h.2⟩, wait := wait, mark := wordAt b 3 }
          error := byteAt b 5
          warning := byteAt b 6 }
    else none
  | none => none

/-- The 16 bytes of area A with its check (R192, R197). -/
def AreaA.bytes (a : AreaA) : List Byte :=
  let body := [0x01] ++ be8 a.settings.window.val ++ be8 a.settings.wait.code ++ wordBytes a.settings.mark
    ++ [a.error, a.warning] ++ List.replicate 7 0
  body ++ wordBytes (crc16 body)

/-- What area B holds: the profiles, and each channel's binding, absent for UNBOUND (R192). -/
structure AreaB where
  profiles : Vector Profile 16
  bindings : Vector (Option ProfileId) 24
deriving DecidableEq, Repr

/-- The defaults of area B (R194, R38). -/
def AreaB.default : AreaB where
  profiles := Vector.replicate 16 .default
  bindings := Vector.replicate 24 (some 0)

/-- The binding a byte holds: a profile id, or UNBOUND (R192). -/
def bindingOf (b : Byte) : Option ProfileId := if h : b.toNat < 16 then some ⟨b.toNat, h⟩ else none

/-- The byte of a binding (R192). -/
def bindingByte (b : Option ProfileId) : Byte := b.elim 255 fun p => BitVec.ofNat 8 p.val

/-- The profile that area B's bytes hold for an id. -/
def profileInArea (b : List Byte) (p : ProfileId) : Option Profile := Profile.read ((b.drop (16 * p.val)).take 16)

/-- Area B's contents are valid: every profile passes R29 and every binding is 0–15 or 255 (R38). -/
def areaBValid (b : List Byte) : Bool :=
  (List.finRange 16).all (fun p => (profileInArea b p).isSome) &&
  (List.range 24).all fun c => (byteAt b (256 + c)).toNat < 16 || byteAt b (256 + c) = 255

/-- The contents of area B, absent when they are not valid (R38). -/
def AreaB.read (b : List Byte) : Option AreaB :=
  if areaBValid b then some
    { profiles := Vector.ofFn fun p : ProfileId => (profileInArea b p).getD .default
      bindings := Vector.ofFn fun c : Chan => bindingOf (byteAt b (256 + c.val)) }
  else none

/-- The 282 bytes of area B with its check (R192, R197). -/
def AreaB.bytes (a : AreaB) : List Byte :=
  let body := a.profiles.toList.flatMap Profile.bytes ++ a.bindings.toList.map bindingByte
  body ++ wordBytes (crc16 body)

/-- The first memory address of an area (R192). -/
def Area.base : Area → Nat
  | .a => 0x0000
  | .b => 0x0040

/-- Data bytes of an area, its check behind them (R192). -/
def Area.dataBytes : Area → Nat
  | .a => 14
  | .b => 280

/-! ### Arguments of management commands (R203) -/

/-- The channel an argument byte names, 1–24. -/
def chanOf (b : Byte) : Option Chan :=
  if h : 1 ≤ b.toNat ∧ b.toNat ≤ 24 then some ⟨b.toNat - 1, by omega⟩ else none

/-- The slot an argument byte names, 0–47. -/
def slotOf (b : Byte) : Option Slot := if h : b.toNat < 48 then some ⟨b.toNat, h⟩ else none

/-- The profile id an argument byte names, 0–15. -/
def profileIdOf (b : Byte) : Option ProfileId := if h : b.toNat < 16 then some ⟨b.toNat, h⟩ else none

/-! ### Arguments of recorder commands -/

/-- The target of a SEEK, brought into 0 to the letter's length (R68). -/
def seekTarget (mode : SeekMode) (value : BitVec 24) (cursor length : Nat) : Nat :=
  match mode with
  | .absolute => min length value.toNat
  | .relative => min length (cursor + value.toInt).toNat

/-- The frames an ERASE removes (R70). -/
def eraseCount (count : BitVec 24) (remaining : Nat) : Nat :=
  if count = 0 then remaining else min count.toNat remaining

end Sys2Proof.Machine
end

