-- ==== Sys2Proof/Machine/StoreCtl.lean ====
section
/-!
DEFINITION. The store controller: the window, accesses and their bytes, the arbiter, block reads and their check,
the free ring, the rebuild (R116 to R136).
-/

namespace Sys2Proof.Machine

/-! ### The window (R116, R117) -/

/-- Blocks N of a window mode (R116). -/
def StoreSettings.blocks (w : StoreSettings) : Nat := 8192 * 2 ^ w.window.val

/-- Blocks of the ring region, N / 256 (R116). -/
def StoreSettings.ringBlocks (w : StoreSettings) : Nat := w.blocks / 256

/-- Usable blocks U (R116). -/
def StoreSettings.usable (w : StoreSettings) : Nat := w.blocks - w.ringBlocks

/-- The usable count as reported: 0 until CONFIG_LOAD ends (R116, R136). -/
def State.usableCount (s : State) : Nat := if s.ctl.st = .unset then 0 else s.ctl.settings.usable

/-- A block number is usable (R116). -/
def State.isUsable (s : State) (b : BlockNo) : Bool :=
  s.ctl.settings.ringBlocks ≤ b.toNat && b.toNat < s.ctl.settings.blocks

/-- The first store byte of a block; the part addresses no byte outside the window (R117), so a number beyond it,
which only a damaged ring can give, is taken modulo the window (log 8). -/
def State.blockBase (s : State) (b : BlockNo) : Nat := b.toNat % s.ctl.settings.blocks * 512

/-! ### The arbiter (R121, R122) -/

/-- The take writer's accesses (R118). -/
def Access.ofTakeWriter : Access → Bool
  | .blockRead _ _ _ _ _ => false
  | .peekRead _ _ => false
  | _ => true

/-- The emitter's access. -/
def Access.ofEmitter : Access → Bool
  | .blockRead .emitter _ _ _ _ => true
  | _ => false

/-- The waiting request that is granted: take writer, then emitter, then management reads in the order their
requests arrived (R121). -/
def StoreCtl.nextGrant (k : StoreCtl) : Option Access :=
  match k.waiting.find? Access.ofTakeWriter with
  | some a => some a
  | none => match k.waiting.find? Access.ofEmitter with
    | some a => some a
    | none => k.waiting.head?

/-- An IDLE controller grants the bus to a waiting request (R121). -/
def StoreCtl.grant (k : StoreCtl) : StoreCtl :=
  match k.st, k.nextGrant with
  | .idle, some a => { k with st := .busy a false, waiting := k.waiting.erase a }
  | _, _ => k

/-- A request arrives: granted at once when the controller is IDLE, else waiting (R122). -/
def State.ask (s : State) (a : Access) : State :=
  s.modCtl fun k => { k with waiting := k.waiting ++ [a] }.grant

/-- An access ends: the controller becomes IDLE and grants among the requests waiting (R121, log 11). After a
restart it enters REBUILDING instead (R123). -/
def State.endAccess (s : State) : State :=
  s.modCtl fun k => match k.st with
    | .busy _ true => { k with st := .rebuilding 0 }
    | _ => { k with st := .idle }.grant

/-! ### What an access writes (R118) -/

/-- The store address and bytes of a write access. -/
def State.writeOf (s : State) : Access → Option (Nat × List Byte)
  | .recordWrite b offset bytes => some (s.blockBase b + 12 + offset, bytes)
  | .gapCountWrite b offset count => some (s.blockBase b + 12 + offset + 1, be8 count)
  | .headerWrite b bytes => some (s.blockBase b, bytes)
  | .ringWrite slot b => some (2 * slot, wordBytes b)
  | _ => none

/-- A write access that ends COMPLETE has placed its bytes. -/
def State.performWrite (s : State) (a : Access) : State :=
  match s.writeOf a with
  | some (n, bytes) => { s with store := Memory.putBytes s.store n bytes }
  | none => s

/-- A write access that ends TIMEOUT has placed the bytes marked (R120). -/
def State.performMarked (s : State) (a : Access) (placed : List Bool) : State :=
  match s.writeOf a with
  | some (n, bytes) => { s with store := Memory.putMarked s.store n bytes placed }
  | none => s

/-! ### Blocks (R124 to R127) -/

/-- The fields of a block header as read (R124, R204). -/
structure BlockHeader where
  mark : Byte
  next : BlockNo
  take : Byte
  recs : Nat
  first : Nat
  used : Nat
  check : BitVec 16
deriving DecidableEq, Repr

/-- A header from its 12 bytes (R204). -/
def BlockHeader.read (bytes : List Byte) : BlockHeader where
  mark := byteAt bytes 0
  next := wordAt bytes 1
  take := byteAt bytes 3
  recs := (byteAt bytes 4).toNat
  first := (tripleAt bytes 5).toNat
  used := (wordAt bytes 8).toNat
  check := wordAt bytes 10

/-- Header bytes 0–9 (R204). -/
def headerFields (next : BlockNo) (t : TakeId) (recs first used : Nat) : List Byte :=
  [0x6B] ++ wordBytes next ++ be8 t.val ++ be8 recs ++ be24 first ++ be16 used

/-- The 12 bytes of the header that describes a take's current block, its check from the part's own view (R90,
R125). -/
def Take.header (take : Take) (t : TakeId) (next : BlockNo) : List Byte :=
  let fields := headerFields next t take.recs take.blkFirst take.view.length
  fields ++ wordBytes (crc16 (fields ++ take.view))

/-- The length a kind byte fixes within a block payload: GAP or SPEECH records alone are known there (R204). -/
def recordLength (kind : Byte) : Option Nat :=
  if kind = 0x20 ∨ kind = 0x21 then some 3
  else if kind = 0x33 then some 52
  else if kind = 0x34 then some 68
  else if kind = 0x35 then some 84
  else none

/-- The frames a record stands for: one, or a GAP record's count (R124). -/
def recordFrames (bytes : List Byte) : Nat :=
  if byteAt bytes 0 = 0x20 ∨ byteAt bytes 0 = 0x21 then (byteAt bytes 1).toNat else 1

/-- The records of a used payload, taken one by one; absent unless they are of known kind and end exactly at the
used count (R127). The first argument bounds the number of records. -/
def readRecords : Nat → List Byte → Option (List BlockRecord)
  | _, [] => some []
  | 0, _ :: _ => none
  | fuel + 1, k :: rest =>
    match recordLength k with
    | some n =>
      if n ≤ (k :: rest).length then
        let bytes := (k :: rest).take n
        (readRecords fuel ((k :: rest).drop n)).map fun more => { bytes, frames := recordFrames bytes } :: more
      else none
    | none => none

/-- The header of a block in the store. -/
def State.headerIn (s : State) (b : BlockNo) : BlockHeader := .read (s.storeBytes (s.blockBase b) 12)

/-- The used payload of a block in the store. -/
def State.payloadIn (s : State) (b : BlockNo) : List Byte := s.storeBytes (s.blockBase b + 12) (s.headerIn b).used

/-- The read check of a block: the first test that fails, or none (R127). -/
def State.blockCheck (s : State) (b : BlockNo) (t : TakeId) (first : Nat) (last : Bool) : Option BlockTest :=
  let h := s.headerIn b
  if h.mark ≠ 0x6B then some .mark
  else if 500 < h.used then some .length
  else if crc16 (s.storeBytes (s.blockBase b) 10 ++ s.payloadIn b) ≠ h.check then some .check
  else if h.take.toNat ≠ t.val then some .take
  else if !(if last then h.next = 0 else s.isUsable h.next && h.next ≠ b) then some .link
  else if h.first ≠ first then some .frame
  else match readRecords 167 (s.payloadIn b) with
    | some records => if records.length = h.recs then none else some .records
    | none => some .records

/-- The records of a block that passes its check. -/
def State.recordsIn (s : State) (b : BlockNo) : List BlockRecord := (readRecords 167 (s.payloadIn b)).getD []

/-- The frames of a run of records (R124). -/
def recordsFrames (records : List BlockRecord) : Nat := (records.map BlockRecord.frames).sum

/-! ### The free ring (R129 to R134) -/

/-- The free count has fallen: below the mark while the state is ABOVE, it becomes BELOW and STORE_LOW is latched
(R133). -/
def State.lowAfterFall (s : State) : State :=
  if s.ctl.free < s.ctl.settings.mark.toNat ∧ s.ctl.low = false then
    (s.modCtl fun k => { k with low := true }).latch .storeLow
  else s

/-- The free count has risen: at the mark or above, the state is ABOVE (R133). -/
def State.lowAfterRise (s : State) : State :=
  if s.ctl.settings.mark.toNat ≤ s.ctl.free then s.modCtl fun k => { k with low := false } else s

/-- The ring slot after another, wrapping (R130, R131). -/
def StoreCtl.slotAfter (k : StoreCtl) (slot : Nat) : Nat := (slot + 1) % k.settings.blocks

/-- The block a ring slot holds (R117). -/
def State.ringSlot (s : State) (slot : Nat) : BlockNo := wordAt (s.storeBytes (2 * slot) 2) 0

/-- An allocation's ring read has completed: the head advances and the free count falls (R130, R133). -/
def State.takeFromRing (s : State) : State :=
  (s.modCtl fun k => { k with head := k.slotAfter k.head, free := k.free - 1 }).lowAfterFall

/-- A return's ring write has completed: the tail advances and the free count rises (R131, R133). -/
def State.giveToRing (s : State) : State :=
  (s.modCtl fun k => { k with tail := k.slotAfter k.tail, free := k.free + 1 }).lowAfterRise

/-- The ring write of a rebuild's slot: slot i holds block N/256 + i (R134). -/
def State.rebuildWrite (s : State) (i : Nat) : Access :=
  .ringWrite i (BitVec.ofNat 16 (s.ctl.settings.ringBlocks + i))

/-- A rebuild's last ring write has completed (R134). -/
def State.endRebuild (s : State) : State :=
  let u := s.ctl.settings.usable
  let below := decide (u < s.ctl.settings.mark.toNat)
  ((s.modCtl fun k => { k with st := .idle, head := 0, tail := u, free := u, low := below }.grant).latchIf below
    .storeLow)

end Sys2Proof.Machine
end

