-- ==== Sys2Proof/Machine/Emit.lean ====
section
/-!
DEFINITION. The letter emitter: the arbiter and aging (R139 to R142), the letter stream and its records (R143 to R148,
R204), cells on the pool link (R149, R150), the endings of a letter (R151 to R155) and the aborted close (R158, R159).
`State.emit` carries the emitter forward as far as it can go without another event.
-/

namespace Sys2Proof.Machine

/-! ### Records of the stream (R204) -/

/-- The letter flags as a byte (R204). -/
def LetterFlags.bits (f : LetterFlags) : Nat :=
  bitsValue [f.unattended, f.patched, f.lowLevel, f.writeFault, f.verifyFailed]

/-- The LETTER_OPEN record (R144, R204). -/
def openRecord (l : Letter) : List Byte :=
  [0x50] ++ be16 l.number ++ be8 l.chan.number ++ be8 l.profile.val ++ be8 (l.priority.elim 0 Fin.val)
    ++ be8 l.flags.bits ++ be24 l.instrFrames ++ be24 l.contentFrames

/-- The code of a section's kind (R204). -/
def SegKind.sectionCode : SegKind → Nat
  | .instruction => 0
  | .content => 1

/-- A letter's frames of one kind as the slot holds them (R108). -/
def Letter.framesOf (l : Letter) : SegKind → Nat
  | .instruction => l.instrFrames
  | .content => l.contentFrames

/-- A SECTION record (R145, R204). -/
def sectionRecord (l : Letter) (kind : SegKind) : List Byte :=
  [0x40] ++ be8 kind.sectionCode ++ be24 (l.framesOf kind)

/-- The code of a closing status (R204). -/
def CloseStatus.code : CloseStatus → Nat
  | .complete => 0
  | .storeFault => 1
  | .aborted => 2

/-- A LETTER_CLOSE record (R148, R204). -/
def closeRecord (status : CloseStatus) (missing : Nat) (check : BitVec 16) : List Byte :=
  [0x60] ++ be8 status.code ++ be24 missing ++ wordBytes check

/-! ### The arbiter (R140 to R142) -/

/-- The effective priority of the letter in slot `k` (R140). -/
def State.effective (s : State) (k : Slot) (l : Letter) : Nat := l.priority.elim 0 Fin.val - s.steps[k]

/-- How far back a letter's submit stamp lies from the stamp counter, modulo 2^32 (R139). -/
def State.stampAge (s : State) (l : Letter) : Nat := (s.emitter.stamp - l.stamp.getD 0).toNat

/-- The letter in slot `k`, when it is QUEUED. -/
def State.queuedIn (s : State) (k : Slot) : Option Letter := s.letters[k].filter fun l => l.state = .queued

/-- The candidates of a pick: slot, effective priority and age of stamp of every QUEUED letter (R141). -/
def State.candidates (s : State) : List (Slot × Nat × Nat) :=
  (List.finRange 48).filterMap fun k => (s.queuedIn k).map fun l => (k, s.effective k l, s.stampAge l)

/-- The better of two candidates: lower effective priority number, then the older stamp (R141). -/
def betterCandidate (x y : Slot × Nat × Nat) : Slot × Nat × Nat :=
  if y.2.1 < x.2.1 ∨ (y.2.1 = x.2.1 ∧ x.2.2 < y.2.2) then y else x

/-- The candidate that wins the pick (R141). -/
def State.winner (s : State) : Option (Slot × Nat × Nat) :=
  match s.candidates with
  | [] => none
  | x :: rest => some (rest.foldl betterCandidate x)

/-- The letter in slot `k` is passed over by a pick of a letter with effective priority `e` (R142). -/
def State.passedOver (s : State) (k w : Slot) (e : Nat) : Bool :=
  k ≠ w && (s.queuedIn k).any fun l => e < s.effective k l

/-- The letters passed over are aged: at a count of 8 the aging step count rises and the count returns to 0 (R142). -/
def State.ageOthers (s : State) (w : Slot) (e : Nat) : State :=
  { s with
    letters := Vector.ofFn fun k : Slot =>
      if s.passedOver k w e then
        s.letters[k].map fun l => { l with aging := if 7 ≤ l.aging then 0 else l.aging + 1 }
      else s.letters[k]
    steps := Vector.ofFn fun k : Slot =>
      if s.passedOver k w e && s.letters[k].any (fun l => 7 ≤ l.aging) then s.steps[k] + 1 else s.steps[k] }

/-- The first entry of a kind at index `i` or after (R143, R145). -/
def nextEntry (m : List Segment) (kind : SegKind) (i : Nat) : Option Nat :=
  (List.range m.length).find? fun j => i ≤ j && (m[j]?).any fun e => e.kind = kind

/-- The section a letter's stream begins with (R143). -/
def Letter.firstSection (l : Letter) : SegKind := if 0 < l.instrFrames then .instruction else .content

/-- A new stream for the letter in slot `k`, in SETTLING (R141, R143). -/
def Emitter.startStream (e : Emitter) (k : Slot) (l : Letter) : Emitter :=
  { e with
    st := .settling, slot := some k, kind := l.firstSection
    entry := (nextEntry l.map l.firstSection 0).getD l.map.length
    placedIn := 0, held := none, buf := [], stage := .opening, rest := [], restFrames := 0
    placed := 0, sent := 0, runCheck := 0xFFFF, sentCheck := 0xFFFF, begun := false }

/-- The pick: the others are aged, the winner becomes EMITTING and its stream is set up (R141 to R143). -/
def State.pick (s : State) (w : Slot × Nat × Nat) : State :=
  match s.letters[w.1] with
  | some l =>
    ((s.ageOthers w.1 w.2.1).modLetter w.1 fun x => { x with state := .emitting }).modEmitter
      fun e => e.startStream w.1 l
  | none => s

/-! ### Placing records (R144 to R148) -/

/-- The EMITTING letter. -/
def State.emitting (s : State) : Option Letter := s.emitter.slot.bind fun k => s.letters[k]

/-- No take named by the letter's map has a close write outstanding (R144). -/
def State.closesEnded (s : State) (l : Letter) : Bool :=
  l.map.all fun e => s.takes[e.take].all fun take => !take.closeWrite

/-- A record begins to be placed: its bytes go to the cell buffer as room allows. -/
def Emitter.load (e : Emitter) (stage : Stage) (bytes : List Byte) (frames : Nat) : Emitter :=
  { e with st := .sending, stage := stage, rest := bytes, restFrames := frames }

/-- Frames not emitted: instruction frames plus content frames minus the frames placed (R153). -/
def Emitter.missing (e : Emitter) (l : Letter) (status : CloseStatus) : Nat :=
  match status with
  | .complete => 0
  | _ => l.length - e.placed

/-- The LETTER_CLOSE record is placed, its check the running check as it stands (R148, R151, R153). -/
def Emitter.close (e : Emitter) (l : Letter) (status : CloseStatus) : Emitter :=
  e.load (.closing status) (closeRecord status (e.missing l status) e.runCheck) 0

/-- As many bytes of the record as fit are placed in the cell buffer; each updates the running check, but for those of
LETTER_CLOSE, which the sent check of an aborted close leaves out therefore (R158, log 34). The record's frames count
when its last byte is placed (R147, R148). -/
def Emitter.move (e : Emitter) : Emitter :=
  let moved := e.rest.take (64 - e.buf.length)
  let left := e.rest.drop (64 - e.buf.length)
  let whole := left.isEmpty
  { e with
    buf := e.buf ++ moved
    rest := left
    runCheck := match e.stage with
      | .closing _ => e.runCheck
      | _ => crc16From e.runCheck moved
    placed := if whole then e.placed + e.restFrames else e.placed
    placedIn := if whole then e.placedIn + e.restFrames else e.placedIn
    restFrames := if whole then 0 else e.restFrames }

/-- The stream's last byte lies in the cell buffer. -/
def Emitter.lastCell (e : Emitter) : Bool :=
  match e.stage with
  | .closing _ => e.rest.isEmpty
  | _ => false

/-- The cell in the buffer is complete (R148). -/
def Emitter.cellComplete (e : Emitter) : Bool := e.buf.length = 64 || e.lastCell

/-- The frames of a block the emitter holds. -/
def HeldBlock.frames (h : HeldBlock) : Nat := recordsFrames h.records

/-- The record whose span holds take frame `f`, and where its span begins (R147). -/
def recordAt (f : Nat) : Nat → List BlockRecord → Option (BlockRecord × Nat)
  | _, [] => none
  | a, r :: rest => if f < a + r.frames then some (r, a) else recordAt f (a + r.frames) rest

/-- A record as placed for `n` frames: a SPEECH record whole, a GAP record with that count (R147). -/
def BlockRecord.cut (r : BlockRecord) (n : Nat) : List Byte :=
  if byteAt r.bytes 0 = 0x20 ∨ byteAt r.bytes 0 = 0x21 then r.bytes.set 1 (BitVec.ofNat 8 n) else r.bytes

/-- The emitter asks for a block of take `t` with the expectations of R146. -/
def State.askBlock (s : State) (t : TakeId) (b : BlockNo) (first : Nat) : State :=
  let last := (s.takes[t].bind Take.current) = some b
  (s.modEmitter fun e => { e with st := .reading }).ask (.blockRead .emitter b t first last)

/-- The emission ends at a block with status STORE_FAULT (R153). -/
def State.closeFault (s : State) (l : Letter) : State := s.modEmitter fun e => e.close l .storeFault

/-- The frames a block holds end before the part of the entry still to be placed, and it is the take's last: the
emitter latches STORE_CHECK itself (R154). -/
def State.shortfall (s : State) (l : Letter) : State := (s.latch .storeCheck).closeFault l

/-- The take's first block is read, expected at frame 0 (R146). A take that holds no block has no frame to place
(log 21). -/
def State.askFirst (s : State) (l : Letter) (t : TakeId) : State :=
  match s.takes[t].bind Take.first with
  | some b => s.askBlock t b 0
  | none => s.shortfall l

/-- Take frame `f` of an entry is looked for: in the held block, in the block after it, or from the take's first
block on (R146, R147, R154). -/
def State.placeFrom (s : State) (l : Letter) (seg : Segment) (f : Nat) : State :=
  match s.emitter.held with
  | some h =>
    if h.take = seg.take ∧ h.first ≤ f then
      match recordAt f h.first h.records with
      | some (r, a) =>
        let n := min (a + r.frames) (seg.start + seg.count) - f
        s.modEmitter fun e => e.load .frames (r.cut n) n
      | none => if h.last then s.shortfall l else s.askBlock seg.take h.next (h.first + h.frames)
    else s.askFirst l seg.take
  | none => s.askFirst l seg.take

/-- The entry being placed is complete: the next entry of the section, the CONTENT section, or the end of the stream
(R145, R151). -/
def State.nextPart (s : State) (l : Letter) : State :=
  let e := s.emitter
  match nextEntry l.map e.kind (e.entry + 1) with
  | some i => s.modEmitter fun e => { e with entry := i, placedIn := 0 }
  | none =>
    if e.kind = .instruction ∧ 0 < l.contentFrames then
      s.modEmitter fun e =>
        { e with kind := .content, entry := (nextEntry l.map .content 0).getD l.map.length, placedIn := 0 }.load
          .sectionHead (sectionRecord l .content) 0
    else s.modEmitter fun e => e.close l .complete

/-- The next record of the stream (R144, R145, R147). -/
def State.nextRecord (s : State) (l : Letter) : State :=
  match s.emitter.stage with
  | .opening => s.modEmitter fun e => e.load .sectionHead (sectionRecord l e.kind) 0
  | _ =>
    match l.map[s.emitter.entry]? with
    | some seg =>
      if seg.count ≤ s.emitter.placedIn then s.nextPart l
      else s.placeFrom l seg (seg.start + s.emitter.placedIn)
    | none => s.nextPart l

/-! ### Cells and endings (R148 to R159) -/

/-- The complete cell begins sending (R148, R149). -/
def State.beginCell (s : State) (l : Letter) : State :=
  let e := s.emitter
  { s with
    pool := some (cellBytes l.chan.number 4 e.poolSeq 0 e.buf.length e.buf)
    emitter := { e with
      poolSeq := e.poolSeq + 1, sentCheck := e.runCheck, sent := e.placed, buf := [], begun := true } }

/-- The emitter has no letter any more (R152, R155). -/
def Emitter.release (e : Emitter) : Emitter :=
  { e with st := .idle, slot := none, held := none, buf := [], rest := [], restFrames := 0 }

/-- EMITTED is offered if the channel is bound (R83). -/
def State.offerEmitted (s : State) (c : Chan) (number : Nat) : State :=
  if s.chans[c].state = .unbound then s else s.offerState c .emitted (s.chanLength c) number

/-- The last cell of a letter has begun sending: a letter closed COMPLETE is freed and reported, one closed
STORE_FAULT becomes FAULTED (R152, R155). -/
def State.endLetter (s : State) (k : Slot) (l : Letter) : State :=
  match s.emitter.stage with
  | .closing .complete =>
    (((s.freeLetter k).zeroSteps k).offerEmitted l.chan l.number).modEmitter Emitter.release
  | _ => (s.modLetter k fun x => { x with state := .faulted }).modEmitter Emitter.release

/-- The aborted close begins sending in a cell of its own (R159). -/
def State.beginAbort (s : State) (a : AbortClose) : State :=
  let e := s.emitter
  { s with
    pool := some (cellBytes a.chan.number 4 e.poolSeq 0 7 (closeRecord .aborted a.missing a.check))
    emitter := { e with st := .idle, poolSeq := e.poolSeq + 1, abort := none } }

/-- A complete cell may begin: the previous pool cell has ended and *HOLD* is negated (R150). -/
def State.poolReady (s : State) : Bool := s.pool.isNone && !s.hold

/-- One thing the emitter can do now, or none: pick, end SETTLING, place bytes, place the next record, begin a cell,
begin the aborted close. -/
def State.emitStep (s : State) : Option State :=
  match s.emitter.st with
  | .idle => if s.hold then none else s.winner.map s.pick
  | .settling => s.emitting.bind fun l =>
      if s.closesEnded l then some (s.modEmitter fun e => e.load .opening (openRecord l) 0) else none
  | .reading => none
  | .sending => s.emitter.slot.bind fun k => s.letters[k].bind fun l =>
      if s.emitter.cellComplete then
        if s.poolReady then
          if s.emitter.lastCell then some ((s.beginCell l).endLetter k l) else some (s.beginCell l)
        else none
      else if s.emitter.rest.isEmpty then some (s.nextRecord l)
      else some (s.modEmitter Emitter.move)
  | .abortPending => if s.poolReady then s.emitter.abort.map s.beginAbort else none

/-- The emitter carried forward, at most so many things. -/
def State.emitRun : Nat → State → State
  | 0, s => s
  | n + 1, s => match s.emitStep with
    | some s' => State.emitRun n s'
    | none => s

/-- The emitter carried forward until it waits for an event: a *HOLD* or the end of a cell, a block read, a close
write, a letter to pick. Between two cell beginnings at most 64 bytes are placed, of records of 3 bytes or more, so
512 things suffice. -/
def State.emit (s : State) : State := State.emitRun 512 s

end Sys2Proof.Machine
end

