-- ==== Sys2Proof/Machine/Writer.lean ====
section
/-!
DEFINITION. The take writer: choosing work, storing frames, stops and write faults, close writes, walks, the stretch
count (R90 to R102), and the verify's reads, which a close write's end can release (R175, R176).
-/

namespace Sys2Proof.Machine

/-! ### Verify reads (R175, R176) -/

/-- Test codes (R203); no test is 0. -/
def BlockTest.code : BlockTest → Nat
  | .mark => 1
  | .length => 2
  | .check => 3
  | .take => 4
  | .link => 5
  | .frame => 6
  | .records => 7
  | .frames => 8
  | .timeout => 9

/-- Reply results (R203). -/
inductive ReplyResult where
  | ok
  | badCmd
  | badArg
  | badCheck
  | state
  | busy
  | fault
  | notReady
deriving DecidableEq, Repr

/-- Reply result codes (R203). -/
def ReplyResult.code : ReplyResult → Nat
  | .ok => 0
  | .badCmd => 1
  | .badArg => 2
  | .badCheck => 3
  | .state => 4
  | .busy => 5
  | .fault => 6
  | .notReady => 7

/-- A REPLY payload (R203). -/
def replyPayload (tag code : Byte) (result : ReplyResult) (fields : List Byte) : List Byte :=
  checkedPayload ([tag, code] ++ be8 result.code ++ fields)

/-- A REPLY is offered on channel 0 (R165). -/
def State.reply (s : State) (tag code : Byte) (result : ReplyResult) (fields : List Byte) : State :=
  s.offer 0 7 64 (replyPayload tag code result fields)

/-- The reply fields of an ended verify (R176, R203). -/
def VerifyCtx.fields (v : VerifyCtx) : List Byte :=
  be8 v.slot.val ++ be16 v.number ++ be16 v.read ++ be16 v.bad ++
  match v.firstBad with
  | some (b, test) => wordBytes b ++ be8 test.code
  | none => be16 0 ++ be8 0

/-- The verify ends: the flag, the letter's return to its prior state, the reply, and a pick that may follow
(R176). -/
def State.endVerify (s : State) (v : VerifyCtx) : State :=
  let returned := s.modLetter v.slot fun l =>
    { l with
      state := v.prior
      flags := { l.flags with verifyFailed := l.flags.verifyFailed || decide (0 < v.bad) } }
  ({ returned with verify := none }.reply v.tag 0x0A .ok v.fields).emit

/-- The verify asks for the next block of its take, or waits for the close write of a current block (R90, R175). -/
def State.verifyBlock (s : State) (v : VerifyCtx) (t : TakeId) (take : Take) : State :=
  if take.current = some v.block ∧ take.closeWrite then { s with verify := some { v with waits := true } }
  else { s with verify := some { v with waits := false } }.ask
    (.blockRead .verify v.block t v.first (v.k = take.blocks))

/-- The verify goes to the first take of its list that holds a block, or ends (R175, R176; log 22). -/
def State.verifyTakes (s : State) (v : VerifyCtx) : List TakeId → State
  | [] => s.endVerify { v with todo := [] }
  | t :: rest =>
    match s.takes[t] with
    | some take => match take.first with
      | some b => s.verifyBlock { v with todo := t :: rest, k := 1, block := b, first := 0 } t take
      | none => s.verifyTakes v rest
    | none => s.verifyTakes v rest

/-- A close write has ended: a verify that waits for it asks for its block (R90). -/
def State.resumeVerify (s : State) : State :=
  match s.verify with
  | some v =>
    if v.waits then
      match v.todo with
      | t :: _ => match s.takes[t] with
        | some take => s.verifyBlock v t take
        | none => s
      | [] => s
    else s
  | none => s

/-- A bad block: it is counted, the first one is kept, and the verify goes to the next take (R175). -/
def State.verifyBad (s : State) (v : VerifyCtx) (test : BlockTest) : State :=
  let counted := { v with
    read := v.read + 1, bad := v.bad + 1
    firstBad := match v.firstBad with
      | some x => some x
      | none => some (v.block, test) }
  s.verifyTakes counted v.todo.tail

/-- A block that passes: the next block, the end of the take, or a frame count that differs (R175). -/
def State.verifyGood (s : State) (v : VerifyCtx) (t : TakeId) (last : Bool) (next : BlockNo) (frames : Nat) : State :=
  match s.takes[t] with
  | some take =>
    if last then
      if v.first + frames = take.frames then s.verifyTakes { v with read := v.read + 1 } v.todo.tail
      else (s.latch .storeCheck).verifyBad v .frames
    else s.verifyBlock { v with read := v.read + 1, k := v.k + 1, block := next, first := v.first + frames } t take
  | none => s

/-! ### The stretch (R102) -/

/-- A stop report of the take is outstanding (log 13). -/
def State.stopReported (s : State) (t : TakeId) : Bool :=
  s.reports.any fun r => r.take = t && r.ofWriting && r.kind ≠ .stretchEnd

/-- An item's take is WRITING, is the one its channel is writing, and no stop of it has been reported (R96, R100). -/
def State.live (s : State) (c : Chan) (t : TakeId) : Bool := s.writes c t && !s.stopReported t

/-- A report is raised. -/
def State.raise (s : State) (c : Chan) (t : TakeId) (kind : ReportKind) : State :=
  { s with reports := s.reports ++ [{ chan := c, take := t, kind := kind }] }

/-- A channel's stretch count set. -/
def State.setStretch (s : State) (c : Chan) (x : Option Stretch) : State := { s with stretch := s.stretch.set c x }

/-- The stretch count and the stop gap of a channel are abandoned (R57, R102). -/
def State.abandonStretch (s : State) (c : Chan) : State :=
  (s.setStretch c none).modWriter fun w => { w with gapTurns := w.gapTurns.erase c }

/-- The stretch end is reported, unless a stop of the take has been (R102). -/
def State.reportStretchEnd (s : State) (c : Chan) (t : TakeId) : State :=
  if s.stopReported t then s.setStretch c none else (s.setStretch c none).raise c t .stretchEnd

/-- A frame of a take is finished: the stretch count falls, and at 0 the stop gap's turn has come, or the stretch end
is reported (R102). -/
def State.stretchFrameDone (s : State) (c : Chan) (t : TakeId) : State :=
  match s.stretch[c] with
  | some x =>
    if x.take = t ∧ 0 < x.count then
      if x.count = 1 then
        if x.gap = 0 then s.reportStretchEnd c t
        else (s.setStretch c (some { x with count := 0 })).modWriter fun w => { w with gapTurns := w.gapTurns ++ [c] }
      else s.setStretch c (some { x with count := x.count - 1 })
    else s
  | none => s

/-! ### Storing frames (R96 to R101) -/

/-- How an item leaves the take writer's hand. -/
inductive JobEnd where
  /-- Every frame of it is stored and committed. -/
  | stored
  /-- It, or the rest of it, is refused without a report (R96). -/
  | refused
  /-- A stop has been raised at one of its frames (R100, R101). -/
  | stopped
deriving DecidableEq, Repr

/-- The take writer takes something in hand. -/
def State.inHand (s : State) (h : Hand) : State := s.modWriter fun w => { w with hand := some h }

/-- The take writer becomes READY. After an item from the coder, a walk step is due if the walk list is not empty
(R95, log 17). -/
def State.letGo (s : State) (fromCoder : Bool) : State :=
  s.modWriter fun w => { w with hand := none, walkFirst := if fromCoder then !w.walkList.isEmpty else w.walkFirst }

/-- An item leaves the hand (R95, R102). -/
def State.endJob (s : State) (j : Job) (how : JobEnd) : State :=
  match j.origin with
  | .dropGap => s.letGo true
  | .frame => match how with
    | .stopped => s.letGo true
    | _ => (s.letGo true).stretchFrameDone j.chan j.take
  | .stopGap => match how with
    | .stored => (s.letGo false).reportStretchEnd j.chan j.take
    | _ => s.letGo false

/-- A stop is raised: the report names the take, the stretch is over, the item leaves the hand (R100, R101, R102). -/
def State.stopJob (s : State) (j : Job) (kind : ReportKind) : State :=
  ((s.raise j.chan j.take kind).abandonStretch j.chan).endJob j .stopped

/-- The take at the head of the walk list, with its entry and first block (R91). -/
def State.walkHead (s : State) : Option (TakeId × Take × BlockNo) :=
  s.writer.walkList.findSome? fun t => match s.takes[t] with
    | some take => take.first.map fun b => (t, take, b)
    | none => none

/-- A walk step begins: the header of the first block is read, or the last block is handed back unread (R92). `wrap`
says what it is held as. -/
def State.beginWalk (s : State) (x : TakeId × Take × BlockNo) (wrap : WalkPhase → Hand) : State :=
  if 1 < x.2.1.blocks then (s.inHand (wrap (.header false))).ask (.headerRead x.2.2)
  else (s.inHand (wrap (.giveBack none))).ask (.ringWrite s.ctl.tail x.2.2)

/-- A block is needed: a ring read when the ring has one; else walk steps until it has; else a store-full stop
(R97, R100, R130). -/
def State.allocateFor (s : State) (j : Job) : State :=
  if s.ctl.free = 0 then
    match s.walkHead with
    | some x => s.beginWalk x fun w => .job { j with phase := .walk x.1 w }
    | none => (s.latch .storeFull).stopJob j .storeFull
  else (s.inHand (.job { j with phase := .allocate })).ask (.ringRead s.ctl.head)

/-- The record a content begins with, when it cannot extend the last gap (R97, R98). -/
def Content.record : Content → List Byte
  | .speech record _ => record
  | .gaps _ level patched => gapRecord 1 level patched

/-- The last gap that a content's first frame extends, if it can: present, below 255, equal patched flag (R98). -/
def Content.extends (x : Content) (take : Take) : Option LastGap :=
  match x with
  | .speech _ _ => none
  | .gaps _ _ patched => take.lastGap.filter fun g => g.count < 255 && g.patched = patched

/-- The next frame of the item in hand is stored, up to the access it needs (R96 to R100). -/
def State.storeFrame (s : State) (j : Job) : State :=
  if !s.live j.chan j.take then s.endJob j .refused
  else if s.commitRoom j.chan = 0 then s.stopJob j .long
  else match s.takes[j.take] with
    | some take =>
      match take.current with
      | some b =>
        match j.content.extends take with
        | some g =>
          (s.inHand (.job { j with phase := .write false })).ask (.gapCountWrite b g.offset (g.count + 1))
        | none =>
          if j.content.record.length ≤ take.freeBytes then
            (s.inHand (.job { j with phase := .write false })).ask
              (.recordWrite b take.view.length j.content.record)
          else s.allocateFor j
      | none => s.allocateFor j
    | none => s.endJob j .refused

/-- A record write has completed: the take's counts advance (R97). -/
def Take.afterRecord (take : Take) (x : Content) : Take :=
  { take with
    view := take.view ++ x.record
    recs := take.recs + 1
    frames := take.frames + 1
    lastGap := match x with
      | .speech _ _ => none
      | .gaps _ _ patched => some { offset := take.view.length, count := 1, patched := patched } }

/-- A gap count write has completed: the take's counts advance (R98). -/
def Take.afterGapCount (take : Take) (g : LastGap) : Take :=
  { take with
    view := take.view.set (g.offset + 1) (BitVec.ofNat 8 (g.count + 1))
    frames := take.frames + 1
    lastGap := some { g with count := g.count + 1 } }

/-- The take after the write of a frame of this content. -/
def Take.afterFrame (take : Take) (x : Content) : Take :=
  match x.extends take with
  | some g => take.afterGapCount g
  | none => take.afterRecord x

/-- The patched flag of a content's frames. -/
def Content.patched : Content → Bool
  | .speech _ patched => patched
  | .gaps _ _ patched => patched

/-- What is left of a content behind its first frame. -/
def Content.rest : Content → Option Content
  | .speech _ _ => none
  | .gaps n level patched => if 1 < n then some (.gaps (n - 1) level patched) else none

/-- A frame's write has completed: it is counted and committed, and the next frame of the item follows (R97 to R99,
R110). If the take has ended meanwhile, the rest of the item is refused (log 12). -/
def State.frameStored (s : State) (j : Job) : State :=
  if !s.live j.chan j.take then s.endJob j .refused
  else
    let committed := (s.modTake j.take fun take => take.afterFrame j.content).commit j.chan j.take j.content.patched
    match j.content.rest with
    | some x => committed.storeFrame { j with content := x }
    | none => committed.endJob j .stored

/-- A new block becomes the take's current block (R97 step 3). -/
def Take.link (take : Take) (b : BlockNo) : Take :=
  { take with
    first := some (take.first.getD b)
    current := some b
    blocks := take.blocks + 1
    view := []
    recs := 0
    blkFirst := take.frames
    lastGap := none }

/-- A block that cannot be linked is handed back (R101, log 12). -/
def State.handBack (s : State) (j : Job) (b : BlockNo) : State :=
  (s.inHand (.job { j with phase := .handBack })).ask (.ringWrite s.ctl.tail b)

/-- The new block in hand is linked, and the frame stored in it (R97 step 3). -/
def State.linkBlock (s : State) (j : Job) (b : BlockNo) : State :=
  if s.live j.chan j.take then (s.modTake j.take fun take => take.link b).storeFrame j else s.handBack j b

/-- An allocation hands over a block: the old block is closed first, if there is one (R97 steps 1 and 2). -/
def State.blockAllocated (s : State) (j : Job) (b : BlockNo) : State :=
  match s.takes[j.take] with
  | some take =>
    if s.live j.chan j.take then
      match take.current with
      | some old =>
        (s.inHand (.job { j with phase := .closeOld b false })).ask (.headerWrite old (take.header j.take b))
      | none => s.linkBlock j b
    else s.handBack j b
  | none => s.handBack j b

/-! ### Close writes and walks (R90 to R93) -/

/-- A close write ends, in success or in a write fault: the take may be freed, a letter in SETTLING or a verify may
wait no longer (R90, R91, R144). -/
def State.endClose (s : State) (t : TakeId) : State :=
  ((((s.modTake t fun take => { take with closeWrite := false }).freeIfDone t).letGo false).resumeVerify).emit

/-- An outstanding close write is taken in hand (R90, R95). -/
def State.beginClose (s : State) (t : TakeId) : State :=
  let taken := s.modWriter fun w => { w with closeQueue := w.closeQueue.erase t }
  match s.takes[t] with
  | some take => match take.current with
    | some b => (taken.inHand (.close t false)).ask (.headerWrite b (take.header t 0))
    | none => taken.endClose t
  | none => taken

/-- A walk stops: STORE_CHECK, and the take is stranded and leaves the walk list (R93). -/
def State.strand (s : State) (t : TakeId) : State :=
  (((s.latch .storeCheck).modTake t fun take => { take with stranded := true }).modWriter
    fun w => { w with walkList := w.walkList.erase t })

/-- What holds a walk step goes on once it has ended: the item in hand asks for its block again (R100), or the take
writer is READY. -/
def State.afterWalk (s : State) (h : Hand) : State :=
  match h with
  | .job j => s.storeFrame j
  | _ => s.letGo false

/-- A walk step's block has joined the ring: the take's first block and block count change, or it becomes FREE
(R92, R131). -/
def State.blockReturned (s : State) (t : TakeId) (next : Option BlockNo) : State :=
  match next with
  | some b => s.modTake t fun take => { take with first := some b, blocks := take.blocks - 1 }
  | none => (s.setTake t none).modWriter fun w => { w with walkList := w.walkList.erase t }

/-- A walk's header has been read: the take id must match and the next block be usable (R92, R93). -/
def State.walkHeaderRead (s : State) (t : TakeId) (b : BlockNo) (h : BlockHeader) (hand : Hand)
    (wrap : WalkPhase → Hand) : State :=
  if h.take.toNat = t.val ∧ s.isUsable h.next then
    (s.inHand (wrap (.giveBack (some h.next)))).ask (.ringWrite s.ctl.tail b)
  else (s.strand t).afterWalk hand

/-! ### Choosing work (R95) -/

/-- A walk step of the head of the walk list, or nothing. -/
def State.takeWalkStep (s : State) : State :=
  match s.walkHead with
  | some x => (s.modWriter fun w => { w with walkFirst := false }).beginWalk x fun w => .walk x.1 w
  | none => s

/-- The coder's item is accepted; the coder is free once its last item is (R1, R4, R95). -/
def State.acceptItem (s : State) (t : TakeId) (it : Item) (rest : List Item) : State :=
  { s with coder := if rest.isEmpty then .idle else .delivering t rest }.storeFrame
    { chan := it.chan, take := it.take, content := it.content
      origin := if it.dropGap then .dropGap else .frame, phase := .write false }

/-- A stop gap whose turn has come is taken in hand (R95, R102). It leaves the channel's predictor as it is, so that a
resumed stretch begins from it (R8); R18 gives a P0 of 0 behind a gap frame (log 32). -/
def State.takeStopGap (s : State) (c : Chan) : State :=
  let taken := s.modWriter fun w => { w with gapTurns := w.gapTurns.erase c }
  match s.stretch[c] with
  | some x => (taken.setStretch c none).storeFrame
      { chan := c, take := x.take, content := .gaps x.gap 0 true, origin := .stopGap, phase := .write false }
  | none => taken

/-- The READY take writer takes its next work, in the order of R95. -/
def State.takeWork (s : State) : State :=
  match s.writer.hand, s.writer.closeQueue, s.writer.gapTurns with
  | some _, _, _ => s
  | none, t :: _, _ => s.beginClose t
  | none, [], c :: _ => s.takeStopGap c
  | none, [], [] =>
    match s.coder with
    | .delivering t (it :: rest) =>
      if s.writer.walkFirst && s.walkHead.isSome then s.takeWalkStep else s.acceptItem t it rest
    | _ => s.takeWalkStep

/-! ### Write faults (R101) -/

/-- A write of a WRITING take has timed out twice: its letter gains WRITE_FAULT and the fault is reported (R101). -/
def State.writeFaultAt (s : State) (j : Job) (headerFailed : Bool) : State :=
  match s.takes[j.take] with
  | some take => ((s.flagWriteFault take.owner).raise j.chan j.take (.writeFault headerFailed)).abandonStretch j.chan
  | none => s

/-- A close write has timed out twice: a take that is still named gives its letter WRITE_FAULT, and a report is
raised for the letter's channel (R101). -/
def State.closeFaultAt (s : State) (t : TakeId) : State :=
  match s.takes[t] with
  | some take =>
    if take.refs = 0 then s
    else match s.letters[take.owner] with
      | some l => (s.flagWriteFault take.owner).raise l.chan t (.lateFault l.number)
      | none => s
  | none => s

end Sys2Proof.Machine
end

