-- ==== Sys2Proof/Machine/Channels.lean ====
section
/-!
DEFINITION. What the channel control unit does, shared by its commands and events: the tests of R61, entering
RECORDING (R65), closing a stretch (R55, R56, R102, R199), completing a stop (R76), submitting (R71), discarding and
flushing (R57, R73), the stops of R78.
-/

namespace Sys2Proof.Machine

/-! ### Taking a CONTROL cell (R61, R81) -/

/-- A CONTROL cell taken in STOPPED restarts the abandon timer, whatever its result (R81). -/
def State.restartAbandon (s : State) (c : Chan) : State :=
  if s.chans[c].state = .stopped then
    s.modChan c fun ch => { ch with abandonTimer := some (s.profileOf c).abandonMinutes }
  else s

/-- Tests 1, 2, 4 and 5 of R61 for a known command; `accepts` names the states the command is accepted in. -/
def State.controlRefusal (s : State) (c : Chan) (accepts : List ChanState) : Option AckResult :=
  if s.startup.state ≠ .ready ∨ s.restart.isSome then some .notReady
  else if s.chans[c].state = .unbound then some .unbound
  else if s.chans[c].state ∈ accepts then none
  else if s.chans[c].state = .stopping then some .busy
  else some .state

/-- A CONTROL cell is taken: refused with an ACK of its result, or carried out (R61, R63). -/
def State.takeControl (s : State) (i : Instr) (c : Chan) (code : Byte) (accepts : List ChanState)
    (act : State → State) : State :=
  let taken := (s.takeCell i).restartAbandon c
  match taken.controlRefusal c accepts with
  | some result => taken.ack c code result
  | none => act taken

/-! ### Recording (R64 to R66) -/

/-- The letter can grow: below the greatest length, or an overwrite inside it (R65 test 2). -/
def State.canGrow (s : State) (c : Chan) : Bool :=
  s.chanLength c < Config.maxLength ||
    (s.chans[c].mode = .overwrite && decide (s.chans[c].cursor < s.chanLength c))

/-- The RECORD makes a take and a map edit: in IDLE, or with continuation clear (R64, R65). -/
def State.startsTake (s : State) (c : Chan) : Bool := s.chans[c].state = .idle || !s.chans[c].cont

/-- The map of the channel's letter; empty before a letter is open (R105). -/
def State.chanMap (s : State) (c : Chan) : List Segment := ((s.openLetter c).map Letter.map).getD []

/-- The first test of R65 that fails. -/
def State.recordRefusal (s : State) (c : Chan) : Option AckResult :=
  if s.chans[c].state = .idle ∧ s.freeSlot = none then some .noSlot
  else if s.chans[c].state = .stopped ∧ s.canGrow c = false then some .long
  else if s.startsTake c = true ∧ s.eligibleTake = none then some .noTake
  else if s.startsTake c = true ∧
      Config.mapSize < (s.chanMap c).length + entriesNeeded (s.chanMap c) s.chans[c].cursor then some .mapFull
  else if s.ctl.free = 0 then some .storeFull
  else none

/-- A RECORD in IDLE opens a letter in the lowest FREE slot (R64, R105). -/
def State.openForRecord (s : State) (c : Chan) : State :=
  if s.chans[c].state = .idle then
    match s.freeSlot with
    | some k => s.openLetterIn c k
    | none => s
  else s

/-- The record-start edit, with continuation clear, on the lowest eligible take (R87, R109). -/
def State.editForRecord (s : State) (c : Chan) : State :=
  if s.chans[c].cont then s
  else match s.chans[c].slot, s.eligibleTake with
    | some k, some t => s.recordStart c k t
    | _, _ => s

/-- The channel enters RECORDING (R65). -/
def State.enterRecording (s : State) (c : Chan) : State :=
  (s.modChan c fun ch =>
      { ch with state := .recording, abandonTimer := none, idleTimer := some (s.profileOf c).idleSeconds }).modAsm c
    fun a => { a with fresh := true }

/-- An accepted RECORD up to its ACK (R64 to R66). -/
def State.startRecording (s : State) (c : Chan) : State := ((s.openForRecord c).editForRecord c).enterRecording c

/-! ### Submitting, discarding, flushing (R57, R71, R73) -/

/-- A SUBMIT's letter is queued or freed, and its ACK offered with the letter's number, cursor and length as they
were; a pick may follow (R71, R63). -/
def State.submitAndAck (s : State) (c : Chan) (priority : Fin 4) : State :=
  ((s.submitLetter c priority false).ackWith c codeSubmit (if s.chanLength c = 0 then .empty else .done)
    s.chans[c].cursor (s.chanLength c) (s.chanLetterNo c)).emit

/-- A flush without the queue entries: the buffer, the drop count and a held stop gap go (R57). -/
def State.flushBuffer (s : State) (c : Chan) : State :=
  (s.modAsm c fun a => { a with buf := [], drops := 0 }).abandonStretch c

/-- A flush with the channel's queue entries (R57). -/
def State.flushChannel (s : State) (c : Chan) : State :=
  { s.flushBuffer c with frames := (s.flushBuffer c).frames.filter fun f => f.chan ≠ c }

/-- The channel's letter ends without emission, and the channel becomes IDLE (R73). -/
def State.discardLetter (s : State) (c : Chan) : State :=
  let flushed := s.flushChannel c
  (match flushed.chans[c].slot with
    | some k => flushed.freeLetter k
    | none => flushed).toIdle c

/-! ### Stops (R55, R56, R76, R102, R199) -/

/-- Frames the open segment that names take `t` holds in the channel's letter. -/
def State.segmentFrames (s : State) (c : Chan) (t : TakeId) : Nat := ((entryOf t (s.chanMap c)).map Segment.count).getD 0

/-- The pending action set. -/
def State.setPending (s : State) (c : Chan) (p : PendingAction) : State := s.modChan c fun ch => { ch with pending := p }

/-- Step 1 of R76: an open segment without frames is removed with its take; else continuation is set. -/
def State.settleSegment (s : State) (c : Chan) (t : TakeId) : State :=
  if s.segmentFrames c t = 0 then (s.dropEmptySegment c t).modChan c fun ch => { ch with cont := false }
  else s.modChan c fun ch => { ch with cont := true }

/-- A stop in flight is completed (R76). -/
def State.completeStop (s : State) (c : Chan) (t : TakeId) : State :=
  let settled := s.settleSegment c t
  match s.chans[c].pending with
  | .stop => ((settled.toStopped c).setPending c .nothing).ack c codeStop .done
  | .autoStop =>
    let stopped := (settled.toStopped c).setPending c .nothing
    stopped.offerState c .autoStop (stopped.chanLength c) (stopped.chanLetterNo c)
  | .submit p => settled.submitAndAck c p
  | .nothing => settled.toStopped c

/-- The item in the take writer's hand counts for a stretch of take `t`; a drop gap is counted with its frame
(R102). -/
def Writer.countsFor (w : Writer) (t : TakeId) : Bool :=
  match w.hand with
  | some (.job j) => decide (j.take = t) && decide (j.origin ≠ .dropGap)
  | _ => false

/-- The frames of take `t` still to reach a commit (R102). -/
def State.stretchFrames (s : State) (t : TakeId) : Nat :=
  s.frames.countP (fun f => f.take = t) + (s.coder.names t).toNat + (s.writer.countsFor t).toNat

/-- Stop padding: a partial frame is completed with pad and offered (R55). -/
def State.padStretch (s : State) (c : Chan) : State :=
  if s.asm[c].buf.isEmpty then s
  else (s.modAsm c fun a => { a with buf := [] }).offerFrame c
    (s.asm[c].buf ++ List.replicate (4 - s.asm[c].buf.length) Piece.pad)

/-- The stretch is closed with `gap` frames of stop gap to hand over: the stop ends at once when nothing is in flight,
else the take writer counts, and a stop gap alone has its turn (R56, R102, R199). -/
def State.handOver (s : State) (c : Chan) (t : TakeId) (gap : Nat) : State :=
  let n := s.stretchFrames t
  if n = 0 ∧ gap = 0 then s.completeStop c t
  else if n = 0 then
    (s.setStretch c (some { take := t, count := 0, gap := gap })).modWriter
      fun w => { w with gapTurns := w.gapTurns ++ [c] }
  else s.setStretch c (some { take := t, count := n, gap := gap })

/-- The frame assembler closes the stretch (R55, R56). A recording channel has a WRITING take (log 30). -/
def State.closeStretch (s : State) (c : Chan) : State :=
  let padded := s.padStretch c
  match padded.writingTake c with
  | some t => (padded.modAsm c fun a => { a with drops := 0 }).handOver c t padded.asm[c].drops
  | none => padded

/-- A stop in flight begins (R67, R72, R80). -/
def State.beginStop (s : State) (c : Chan) (p : PendingAction) : State :=
  (s.modChan c fun ch => { ch with state := .stopping, pending := p, idleTimer := none }).closeStretch c

/-! ### Stops raised by the take writer (R78, R79) -/

/-- Steps 1 to 3 of R78: the flush, the end of the take, STOPPED. -/
def State.endRecording (s : State) (c : Chan) (t : TakeId) : State :=
  ((((s.flushBuffer c).dropEmptySegment c t).clearCont c).toStopped c).setPending c .nothing

/-- The five steps of R78. -/
def State.stopAtChannel (s : State) (c : Chan) (t : TakeId) (report : StateReport) : State :=
  let stopped := s.endRecording c t
  let told := stopped.offerState c report (stopped.chanLength c) (stopped.chanLetterNo c)
  if s.chans[c].state = .stopping then
    match s.chans[c].pending with
    | .stop => told.ack c codeStop .done
    | .submit p => told.submitAndAck c p
    | _ => told
  else told

end Sys2Proof.Machine
end

