-- ==== Sys2Proof/Machine/Control.lean ====
section
/-!
DEFINITION. The recorder commands: RECORD, STOP, SEEK, EDITMODE, INSTRUCT, ERASE, SUBMIT, DISCARD, POSITION,
CONTROL_UNKNOWN (R61 to R77).
-/

namespace Sys2Proof.Machine

/-! ### RECORD -/

/-- A RECORD that passes R61 (R64 to R66). -/
def State.recordTaken (s : State) (c : Chan) : State :=
  if s.chans[c].state = .recording then s.ack c codeRecord .done
  else match s.recordRefusal c with
    | some result => s.ack c codeRecord result
    | none => (s.startRecording c).ack c codeRecord .done

/-- RECORD (R64 to R66). -/
def execRecord (c : Chan) (s : State) : Result :=
  .next (s.takeControl (.record c) c codeRecord [.idle, .stopped, .recording] fun x => x.recordTaken c)

/-! ### STOP -/

/-- A STOP that passes R61: its ACK is deferred in RECORDING (R67). -/
def State.stopTaken (s : State) (c : Chan) : State :=
  if s.chans[c].state = .recording then s.beginStop c .stop else s.ack c codeStop .done

/-- STOP (R67). -/
def execStop (c : Chan) (s : State) : Result :=
  .next (s.takeControl (.stop c) c codeStop [.stopped, .recording] fun x => x.stopTaken c)

/-! ### SEEK -/

/-- A SEEK in STOPPED (R68). -/
def State.seekTaken (s : State) (c : Chan) (mode : SeekMode) (value : BitVec 24) : State :=
  let target := seekTarget mode value s.chans[c].cursor (s.chanLength c)
  ((s.clearCont c).modChan c fun ch => { ch with cursor := target }).ack c codeSeek .done

/-- SEEK (R68). -/
def execSeek (c : Chan) (mode : SeekMode) (value : BitVec 24) (s : State) : Result :=
  .next (s.takeControl (.seek c mode value) c codeSeek [.stopped] fun x => x.seekTaken c mode value)

/-! ### EDITMODE and INSTRUCT -/

/-- Continuation is cleared in STOPPED by a change of the value held (R69, R60). -/
def State.clearOnChange (s : State) (c : Chan) (changes : Bool) : State :=
  if s.chans[c].state = .stopped ∧ changes then s.clearCont c else s

/-- An EDITMODE in IDLE or STOPPED (R69). -/
def State.editmodeTaken (s : State) (c : Chan) (mode : EditMode) : State :=
  ((s.clearOnChange c (s.chans[c].mode ≠ mode)).modChan c fun ch => { ch with mode := mode }).ack c codeEditmode .done

/-- EDITMODE (R69). -/
def execEditmode (c : Chan) (mode : EditMode) (s : State) : Result :=
  .next (s.takeControl (.editmode c mode) c codeEditmode [.idle, .stopped] fun x => x.editmodeTaken c mode)

/-- An INSTRUCT in IDLE or STOPPED (R69). -/
def State.instructTaken (s : State) (c : Chan) (on : Bool) : State :=
  ((s.clearOnChange c (s.chans[c].instruct ≠ on)).modChan c fun ch => { ch with instruct := on }).ack c codeInstruct
    .done

/-- INSTRUCT (R69). -/
def execInstruct (c : Chan) (on : Bool) (s : State) : Result :=
  .next (s.takeControl (.instruct c on) c codeInstruct [.idle, .stopped] fun x => x.instructTaken c on)

/-! ### ERASE -/

/-- The erase of `m` frames at the cursor would split an entry, and the map is full (R70). -/
def State.eraseMapFull (s : State) (c : Chan) (m : Nat) : Bool :=
  (splitTake 0 s.chans[c].cursor (s.chans[c].cursor + m) (s.chanMap c)).isSome &&
    decide (Config.mapSize ≤ (s.chanMap c).length)

/-- An ERASE in STOPPED (R70, R113). -/
def State.eraseTaken (s : State) (c : Chan) (count : BitVec 24) : State :=
  let m := eraseCount count (s.chanLength c - s.chans[c].cursor)
  if s.eraseMapFull c m then s.ack c codeErase .mapFull
  else ((s.clearCont c).eraseFrames c m).ack c codeErase .done

/-- ERASE (R70). -/
def execErase (c : Chan) (count : BitVec 24) (s : State) : Result :=
  .next (s.takeControl (.erase c count) c codeErase [.stopped] fun x => x.eraseTaken c count)

/-! ### SUBMIT -/

/-- The priority a SUBMIT resolves to (R71, R34). -/
def State.resolvePriority (s : State) (c : Chan) (priority : Option (Fin 4)) : Fin 4 :=
  priority.getD (s.profileOf c).prio

/-- A SUBMIT in STOPPED, or in RECORDING, where its ACK is deferred (R71, R72). -/
def State.submitTaken (s : State) (c : Chan) (priority : Option (Fin 4)) : State :=
  if s.chans[c].state = .recording then s.beginStop c (.submit (s.resolvePriority c priority))
  else s.submitAndAck c (s.resolvePriority c priority)

/-- SUBMIT (R71, R72). -/
def execSubmit (c : Chan) (priority : Option (Fin 4)) (s : State) : Result :=
  .next (s.takeControl (.submit c priority) c codeSubmit [.stopped, .recording] fun x => x.submitTaken c priority)

/-! ### DISCARD and POSITION -/

/-- A DISCARD where there is a letter; its ACK carries the letter's number, cursor 0 and length 0 (R73, R63). -/
def State.discardTaken (s : State) (c : Chan) : State :=
  (s.discardLetter c).ackWith c codeDiscard .done 0 0 (s.chanLetterNo c)

/-- DISCARD (R73). -/
def execDiscard (c : Chan) (s : State) : Result :=
  .next (s.takeControl (.discard c) c codeDiscard [.stopped, .recording, .stopping] fun x => x.discardTaken c)

/-- POSITION (R74). -/
def execPosition (c : Chan) (s : State) : Result :=
  .next (s.takeControl (.position c) c codePosition [.idle, .stopped, .recording, .stopping]
    fun x => x.ack c codePosition .done)

/-! ### CONTROL_UNKNOWN -/

/-- Tests 1 to 3 of R61 for a cell that carries no known command. -/
def State.unknownResult (s : State) (c : Chan) : AckResult :=
  if s.startup.state ≠ .ready ∨ s.restart.isSome then .notReady
  else if s.chans[c].state = .unbound then .unbound
  else .unknown

/-- CONTROL_UNKNOWN (R61, R62). -/
def execControlUnknown (c : Chan) (code : Byte) (s : State) : Result :=
  let taken := (s.takeCell (.controlUnknown c code)).restartAbandon c
  .next (taken.ack c code (taken.unknownResult c))

end Sys2Proof.Machine
end

