-- ==== Sys2Proof/Machine/EmitterEvents.lean ====
section
/-!
DEFINITION. The letter emitter's events: EMITTER_BLOCK_READ_DONE, HOLD_ASSERT, HOLD_NEGATE, POOL_CELL_END (R146,
R150, R153).
-/

namespace Sys2Proof.Machine

/-- A block that passes its check becomes the held block (R146). -/
def State.holdBlock (s : State) (h : HeldBlock) : State :=
  s.modEmitter fun e => { e with st := .sending, held := some h }

/-- The block a read has fetched, as the emitter holds it (R138). -/
def State.heldOf (s : State) (b : BlockNo) (t : TakeId) (last : Bool) : HeldBlock where
  block := b
  take := t
  first := (s.headerIn b).first
  records := s.recordsIn b
  next := (s.headerIn b).next
  last := last

/-- A block read that fails its check ends the emission with STORE_FAULT; STORE_CHECK has been latched (R127,
R153). -/
def State.emitterReadFailed (s : State) : State :=
  match s.emitting with
  | some l => (s.latch .storeCheck).closeFault l
  | none => s.latch .storeCheck

/-- EMITTER_BLOCK_READ_DONE: an emitter block read ends COMPLETE; an emitter that is not READING disregards it (R122,
R127, R146, R153). -/
def execEmitterBlockReadDone (changed : List Host.Cell) (s : State) : Result :=
  .next (match s.ctl.st with
    | .busy (.blockRead .emitter b t first last) discarded =>
      let read := s.changeStore changed
      if discarded = true ∨ s.emitter.st ≠ .reading then read.endAccess
      else match read.blockCheck b t first last with
        | none => (read.endAccess.holdBlock (read.heldOf b t last)).emit
        | some _ => read.endAccess.emitterReadFailed.emit
    | _ => s)

/-- HOLD_ASSERT (R150). -/
def execHoldAssert (s : State) : Result := .next { s with hold := true }

/-- HOLD_NEGATE: a waiting cell begins, or a letter is picked (R150, R141). -/
def execHoldNegate (s : State) : Result := .next (if s.hold then { s with hold := false }.emit else s)

/-- POOL_CELL_END: the next complete cell begins when *HOLD* is negated (R150). -/
def execPoolCellEnd (s : State) : Result := .next (if s.pool.isSome then { s with pool := none }.emit else s)

end Sys2Proof.Machine
end

