-- ==== Sys2Proof/Machine/MgmtCells.lean ====
section
/-!
DEFINITION. Taking a MGMT cell (R163 to R165), and the commands on the part, its profiles and its channels:
MGMT_UNKNOWN, IDENT, STORE_READ, PROFILE_WRITE, PROFILE_READ, CHANNEL_BIND, CHANNEL_READ, CHANNEL_CLEAR.
-/

namespace Sys2Proof.Machine

/-! ### Taking a MGMT cell (R163 to R165) -/

/-- The cell has its 64 bytes, and its check matches (R163). -/
def mgmtPasses (m : Mgmt) : Bool := m.used = 64 && m.intact

/-- The tag a REPLY echoes: 0 for a used count of 0 (R163). -/
def echoTag (m : Mgmt) : Byte := if m.used = 0 then 0 else m.tag

/-- The command byte a BADCHECK reply echoes: 0 for a used count of 0 or 1 (R163). -/
def echoCode (m : Mgmt) (code : Byte) : Byte := if m.used.toNat < 2 then 0 else code

/-- A cell whose check fails is answered BADCHECK, and MGMT_CHECK is latched (R163). -/
def State.badCheck (s : State) (m : Mgmt) (code : Byte) : State :=
  (s.latch .mgmtCheck).reply (echoTag m) (echoCode m code) .badCheck []

/-- Tests 1 and 3 of R164 for a known command; `early` is set for IDENT and STATUS_READ. -/
def State.mgmtRefusal (s : State) (early : Bool) : Option ReplyResult :=
  if s.restart.isSome then some .busy
  else if s.startup.state ≠ .ready ∧ early = false then some .notReady
  else none

/-- A MGMT cell with a known command is taken: refused, or handed to the command (R163, R164). -/
def State.takeMgmt (s : State) (i : Instr) (m : Mgmt) (code : Byte) (early : Bool) (act : State → State) : State :=
  let taken := s.takeCell i
  if mgmtPasses m then
    match taken.mgmtRefusal early with
    | some result => taken.reply m.tag code result []
    | none => act taken
  else taken.badCheck m code

/-- MGMT_UNKNOWN: BUSY during a restart, else BADCMD, whatever the start-up state (R164). -/
def execMgmtUnknown (m : Mgmt) (code : Byte) (s : State) : Result :=
  let taken := s.takeCell (.mgmtUnknown m code)
  .next (if mgmtPasses m then taken.reply m.tag code (if taken.restart.isSome then .busy else .badCmd) []
    else taken.badCheck m code)

/-! ### IDENT and STORE_READ (R166, R136) -/

/-- Start-up state codes (R203). -/
def StartState.code : StartState → Nat
  | .powerOn => 0
  | .configLoad => 1
  | .storeInit => 2
  | .ready => 3

/-- The fields of IDENT (R166, R203). -/
def State.identFields (s : State) : List Byte :=
  be16 Config.partCode ++ be8 Config.revision ++ be8 s.startup.state.code ++ be8 s.ctl.settings.window.val
    ++ be16 s.usableCount ++ be8 Config.channelCount

/-- IDENT (R166). -/
def execIdent (m : Mgmt) (s : State) : Result :=
  .next (s.takeMgmt (.ident m) m 0x01 true fun x => x.reply m.tag 0x01 .ok x.identFields)

/-- The fields of STORE_READ (R166, R136, R203). -/
def State.storeFields (s : State) : List Byte :=
  be16 s.usableCount ++ be16 s.ctl.free ++ wordBytes s.ctl.settings.mark ++ be8 s.ctl.settings.window.val
    ++ be8 s.ctl.settings.wait.code ++ be8 s.ctl.low.toNat

/-- STORE_READ (R166). -/
def execStoreRead (m : Mgmt) (s : State) : Result :=
  .next (s.takeMgmt (.storeRead m) m 0x0E false fun x => x.reply m.tag 0x0E .ok x.storeFields)

/-! ### Profiles (R29 to R35) -/

/-- The channels bound to a profile, ascending (R30). -/
def State.boundChannels (s : State) (p : ProfileId) : List Chan :=
  (List.finRange 24).filter fun c => decide (s.chans[c].profile = some p)

/-- A list of channels as bytes behind its length (R203). -/
def chanListBytes (cs : List Chan) : List Byte := be8 cs.length ++ cs.flatMap fun c => be8 c.number

/-- An accepted PROFILE_WRITE: the whole profile, and the gain of every channel bound to it (R30, R31). -/
def State.writeProfile (s : State) (p : ProfileId) (pf : Profile) : State :=
  { s with
    profiles := s.profiles.set p pf
    ctx := Vector.ofFn fun c : Chan =>
      if s.chans[c].profile = some p then { s.ctx[c] with g := pf.boundGain s.ctx[c].g } else s.ctx[c] }

/-- A PROFILE_WRITE that passes R164 up to its arguments (R29, R30). -/
def State.profileWriteTaken (s : State) (m : Mgmt) (profile : Byte) (fields : Vector Byte 16) : State :=
  match profileIdOf profile, Profile.read fields.toList with
  | some p, some pf =>
    (s.writeProfile p pf).reply m.tag 0x02 .ok ([profile] ++ chanListBytes (s.boundChannels p))
  | _, _ => s.reply m.tag 0x02 .badArg []

/-- PROFILE_WRITE (R29 to R31). -/
def execProfileWrite (m : Mgmt) (profile : Byte) (fields : Vector Byte 16) (s : State) : Result :=
  .next (s.takeMgmt (.profileWrite m profile fields) m 0x02 false fun x => x.profileWriteTaken m profile fields)

/-- A PROFILE_READ that passes R164 up to its argument (R35). -/
def State.profileReadTaken (s : State) (m : Mgmt) (profile : Byte) : State :=
  match profileIdOf profile with
  | some p => s.reply m.tag 0x03 .ok ([profile] ++ s.profiles[p].bytes ++ chanListBytes (s.boundChannels p))
  | none => s.reply m.tag 0x03 .badArg []

/-- PROFILE_READ (R35). -/
def execProfileRead (m : Mgmt) (profile : Byte) (s : State) : Result :=
  .next (s.takeMgmt (.profileRead m profile) m 0x03 false fun x => x.profileReadTaken m profile)

/-! ### CHANNEL_BIND (R36, R37) -/

/-- The fields of CHANNEL_BIND, the state as it stands (R203). -/
def State.bindFields (s : State) (c : Chan) : List Byte :=
  be8 c.number ++ [bindingByte s.chans[c].profile] ++ be8 s.chans[c].state.code

/-- An accepted bind (R36, R9). -/
def State.bind (s : State) (c : Chan) (p : ProfileId) : State :=
  (s.modChan c fun ch => { ch with state := .idle, profile := some p }).modCtx c
    fun x => { x with g := s.profiles[p].g0 }

/-- An accepted unbind (R37, R9, R50). -/
def State.unbind (s : State) (c : Chan) : State :=
  ((s.modChan c fun ch => { ch with state := .unbound, profile := none }).modCtx c fun _ => .unbound).modAsm c
    fun a => { a with expected := none }

/-- A CHANNEL_BIND with its arguments in range: a bind or an unbind, tested against the channel's state (R36). -/
def State.bindTaken (s : State) (m : Mgmt) (c : Chan) (profile : Option ProfileId) : State :=
  match profile with
  | some p =>
    if s.chans[c].state = .unbound ∨ s.chans[c].state = .idle then
      (s.bind c p).reply m.tag 0x04 .ok ((s.bind c p).bindFields c)
    else s.reply m.tag 0x04 .state []
  | none =>
    if s.chans[c].state = .idle then (s.unbind c).reply m.tag 0x04 .ok ((s.unbind c).bindFields c)
    else s.reply m.tag 0x04 .state []

/-- A CHANNEL_BIND that passes R164 up to its arguments (R36). -/
def State.channelBindTaken (s : State) (m : Mgmt) (channel profile : Byte) : State :=
  match chanOf channel with
  | some c =>
    if profile.toNat < 16 ∨ profile = 255 then s.bindTaken m c (profileIdOf profile)
    else s.reply m.tag 0x04 .badArg []
  | none => s.reply m.tag 0x04 .badArg []

/-- CHANNEL_BIND (R36, R37). -/
def execChannelBind (m : Mgmt) (channel profile : Byte) (s : State) : Result :=
  .next (s.takeMgmt (.channelBind m channel profile) m 0x04 false fun x => x.channelBindTaken m channel profile)

/-! ### CHANNEL_READ (R168) -/

/-- The code of a pending action (R203). -/
def PendingAction.code : PendingAction → Nat
  | .nothing => 0
  | .stop => 1
  | .autoStop => 2
  | .submit _ => 3

/-- The priority of a pending SUBMIT, else 0 (R203). -/
def PendingAction.priority : PendingAction → Nat
  | .submit p => p.val
  | _ => 0

/-- The fields of CHANNEL_READ (R168, R203). -/
def State.channelFields (s : State) (c : Chan) : List Byte :=
  let ch := s.chans[c]
  be8 c.number ++ be8 ch.state.code ++ [bindingByte ch.profile] ++ be8 (ch.slot.elim 255 Fin.val)
    ++ be24 ch.cursor ++ be24 (s.chanLength c) ++ be16 (s.chanLetterNo c)
    ++ be8 (bitsValue [decide (ch.mode = .overwrite), ch.instruct, ch.cont])
    ++ be8 ch.pending.code ++ be8 ch.pending.priority
    ++ be8 (bitsValue [ch.idleTimer.isSome, ch.abandonTimer.isSome])
    ++ be8 s.chanConds[c].bits ++ be16 s.ctx[c].g ++ wordBytes (BitVec.ofInt 16 s.ctx[c].p) ++ be8 s.ctx[c].q

/-- A CHANNEL_READ that passes R164 up to its argument; its REPLY reports the channel's conditions (R168, R187). -/
def State.channelReadTaken (s : State) (m : Mgmt) (channel : Byte) : State :=
  match chanOf channel with
  | some c => (s.reportChannel c).reply m.tag 0x05 .ok (s.channelFields c)
  | none => s.reply m.tag 0x05 .badArg []

/-- CHANNEL_READ (R168). -/
def execChannelRead (m : Mgmt) (channel : Byte) (s : State) : Result :=
  .next (s.takeMgmt (.channelRead m channel) m 0x05 false fun x => x.channelReadTaken m channel)

/-! ### CHANNEL_CLEAR (R169, R85) -/

/-- A context as a restart or a clear sets it (R10). -/
def State.freshCtx (s : State) (c : Chan) : CoderCtx :=
  match s.chans[c].profile with
  | some p => { CoderCtx.unbound with g := s.profiles[p].g0 }
  | none => .unbound

/-- The channel's letter, stretch and cells go as by DISCARD; an IDLE or UNBOUND channel keeps its state (R85,
R57). -/
def State.clearLetter (s : State) (c : Chan) : State :=
  if s.chans[c].state = .unbound ∨ s.chans[c].state = .idle then s.flushChannel c else s.discardLetter c

/-- The clear of a channel (R85, R169, R191). -/
def State.clearChannel (s : State) (c : Chan) : State :=
  let left := s.clearLetter c
  ((left.modChanConds c fun _ => .clear).modAsm c fun a => { a with expected := none }).modCtx c
    fun _ => left.freshCtx c

/-- A CHANNEL_CLEAR that passes R164 up to its argument (R169). -/
def State.channelClearTaken (s : State) (m : Mgmt) (channel : Byte) : State :=
  match chanOf channel with
  | some c =>
    (s.clearChannel c).reply m.tag 0x06 .ok
      (be8 c.number ++ be8 (s.clearChannel c).chans[c].state.code ++ be16 (s.chanLetterNo c))
  | none => s.reply m.tag 0x06 .badArg []

/-- CHANNEL_CLEAR (R169, R85). -/
def execChannelClear (m : Mgmt) (channel : Byte) (s : State) : Result :=
  .next (s.takeMgmt (.channelClear m channel) m 0x06 false fun x => x.channelClearTaken m channel)

end Sys2Proof.Machine
end

