-- ==== Sys2Proof/Machine/LetterCells.lean ====
section
/-!
DEFINITION. The commands on letters and on the store: LETTER_LIST, LETTER_READ, MAP_READ, LETTER_VERIFY, EMIT_AGAIN,
DROP, BLOCK_PEEK, and the ends of a verify's and a peek's reads: VERIFY_BLOCK_READ_DONE, PEEK_READ_DONE (R170 to
R179).
-/

namespace Sys2Proof.Machine

/-! ### Reading letters (R171 to R173) -/

/-- The code of a slot that is not FREE (R203). -/
def LetterState.code : LetterState → Nat
  | .opened => 1
  | .queued => 2
  | .emitting => 3
  | .faulted => 4
  | .verifying => 5

/-- The code of a slot's state (R203). -/
def slotCode (l : Option Letter) : Nat := l.elim 0 fun x => x.state.code

/-- The letter number of a slot, 0 when FREE. -/
def slotNumber (l : Option Letter) : Nat := l.elim 0 Letter.number

/-- The slots that are not FREE, from a first slot upward (R171). -/
def State.heldSlots (s : State) (first : Slot) : List Slot :=
  (List.finRange 48).filter fun k => decide (first ≤ k) && s.letters[k].isSome

/-- One slot of the list (R203). -/
def State.listItem (s : State) (k : Slot) : List Byte :=
  be8 k.val ++ be8 (slotCode s.letters[k]) ++ be16 (slotNumber s.letters[k])

/-- The slot after the last one listed, or 255 when no further slot is held (R171). -/
def nextSlot (held : List Slot) : Nat :=
  if 14 < held.length then ((held.take 14).getLast?.elim 0 Fin.val) + 1 else 255

/-- The fields of LETTER_LIST (R171, R203). -/
def State.listFields (s : State) (first : Slot) : List Byte :=
  let held := s.heldSlots first
  be8 (held.take 14).length ++ be8 (nextSlot held) ++ (held.take 14).flatMap s.listItem

/-- A LETTER_LIST that passes R164 up to its argument (R171). -/
def State.letterListTaken (s : State) (m : Mgmt) (first : Byte) : State :=
  match slotOf first with
  | some k => s.reply m.tag 0x07 .ok (s.listFields k)
  | none => s.reply m.tag 0x07 .badArg []

/-- LETTER_LIST (R171). -/
def execLetterList (m : Mgmt) (first : Byte) (s : State) : Result :=
  .next (s.takeMgmt (.letterList m first) m 0x07 false fun x => x.letterListTaken m first)

/-- The fields of a letter, from its state on; all 0 for a FREE slot (R172, R203). Where priority and stamp are absent,
while OPEN, their bytes are 0 (log 35). -/
def State.letterFields (s : State) (k : Slot) : List Byte :=
  match s.letters[k] with
  | some l =>
    be8 l.state.code ++ be16 l.number ++ be8 l.chan.number ++ be8 l.profile.val
      ++ be8 (l.priority.isSome && l.stamp.isSome).toNat ++ be8 (l.priority.elim 0 Fin.val)
      ++ quadBytes (l.stamp.getD 0) ++ be8 l.aging ++ be8 s.steps[k] ++ be8 l.flags.bits
      ++ be24 l.contentFrames ++ be24 l.instrFrames ++ be8 l.map.length
  | none => List.replicate 21 0

/-- A LETTER_READ that passes R164 up to its argument (R172). -/
def State.letterReadTaken (s : State) (m : Mgmt) (slot : Byte) : State :=
  match slotOf slot with
  | some k => s.reply m.tag 0x08 .ok ([slot] ++ s.letterFields k)
  | none => s.reply m.tag 0x08 .badArg []

/-- LETTER_READ (R172). -/
def execLetterRead (m : Mgmt) (slot : Byte) (s : State) : Result :=
  .next (s.takeMgmt (.letterRead m slot) m 0x08 false fun x => x.letterReadTaken m slot)

/-- The code of an entry's kind in MAP_READ (R203). -/
def SegKind.mapCode : SegKind → Nat
  | .content => 0
  | .instruction => 1

/-- One entry of a map (R203). -/
def Segment.bytes (e : Segment) : List Byte :=
  be8 e.take.val ++ be24 e.start ++ be24 e.count ++ be8 e.kind.mapCode

/-- The map of a slot; empty when FREE (R173). -/
def State.slotMap (s : State) (k : Slot) : List Segment := (s.letters[k].map Letter.map).getD []

/-- The fields of MAP_READ (R173, R203). -/
def State.mapFields (s : State) (k : Slot) (index : Nat) : List Byte :=
  let entries := ((s.slotMap k).drop index).take 6
  be8 k.val ++ be8 (slotCode s.letters[k]) ++ be16 (slotNumber s.letters[k]) ++ be8 (s.slotMap k).length ++ be8 index
    ++ be8 entries.length ++ entries.flatMap Segment.bytes

/-- A MAP_READ that passes R164 up to its arguments (R173). -/
def State.mapReadTaken (s : State) (m : Mgmt) (slot index : Byte) : State :=
  match slotOf slot with
  | some k =>
    if index.toNat ≤ 40 then s.reply m.tag 0x09 .ok (s.mapFields k index.toNat) else s.reply m.tag 0x09 .badArg []
  | none => s.reply m.tag 0x09 .badArg []

/-- MAP_READ (R173). -/
def execMapRead (m : Mgmt) (slot index : Byte) (s : State) : Result :=
  .next (s.takeMgmt (.mapRead m slot index) m 0x09 false fun x => x.mapReadTaken m slot index)

/-! ### Commands that change a letter (R170) -/

/-- A command on a letter named by slot and number: BADARG, STATE, or the command's own rule (R170). -/
def State.onLetter (s : State) (m : Mgmt) (code slot : Byte) (number : BitVec 16) (act : Slot → Letter → State) :
    State :=
  match slotOf slot with
  | some k => match s.letters[k] with
    | some l => if l.number = number.toNat then act k l else s.reply m.tag code .state []
    | none => s.reply m.tag code .state []
  | none => s.reply m.tag code .badArg []

/-- Slot and letter number, as replies carry them (R203). -/
def letterNamed (k : Slot) (l : Letter) : List Byte := be8 k.val ++ be16 l.number

/-- The takes a map names, each once, in the order of first appearance (R174). -/
def takeList (entries : List Segment) : List TakeId := (entries.map Segment.take).eraseDups

/-- An accepted LETTER_VERIFY: the letter becomes VERIFYING, and the first read is asked for (R174, R175). -/
def State.startVerify (s : State) (m : Mgmt) (k : Slot) (l : Letter) : State :=
  let v : VerifyCtx :=
    { tag := m.tag, slot := k, number := l.number, prior := l.state, todo := takeList l.map, k := 1, block := 0
      first := 0, read := 0, bad := 0, firstBad := none, waits := false }
  ({ s with verify := some v }.modLetter k fun x => { x with state := .verifying }).verifyTakes v (takeList l.map)

/-- The tests of R174. -/
def State.verifyCommand (s : State) (m : Mgmt) (k : Slot) (l : Letter) : State :=
  if s.verify.isSome then s.reply m.tag 0x0A .busy []
  else if l.state = .queued ∨ l.state = .faulted then s.startVerify m k l
  else s.reply m.tag 0x0A .state []

/-- LETTER_VERIFY (R170, R174). -/
def execLetterVerify (m : Mgmt) (slot : Byte) (number : BitVec 16) (s : State) : Result :=
  .next (s.takeMgmt (.letterVerify m slot number) m 0x0A false
    fun x => x.onLetter m 0x0A slot number fun k l => x.verifyCommand m k l)

/-- The tests and effects of R177; a pick may follow (R141). -/
def State.emitAgainCommand (s : State) (m : Mgmt) (k : Slot) (l : Letter) : State :=
  if l.state = .faulted then ((s.queueLetter k id).reply m.tag 0x0B .ok (letterNamed k l)).emit
  else s.reply m.tag 0x0B .state []

/-- EMIT_AGAIN (R170, R177). -/
def execEmitAgain (m : Mgmt) (slot : Byte) (number : BitVec 16) (s : State) : Result :=
  .next (s.takeMgmt (.emitAgain m slot number) m 0x0B false
    fun x => x.onLetter m 0x0B slot number fun k l => x.emitAgainCommand m k l)

/-- The tests and effects of R178. -/
def State.dropCommand (s : State) (m : Mgmt) (k : Slot) (l : Letter) : State :=
  if l.state = .queued ∨ l.state = .faulted then
    ((s.freeLetter k).zeroSteps k).reply m.tag 0x0C .ok (letterNamed k l)
  else if l.state = .verifying then s.reply m.tag 0x0C .busy []
  else s.reply m.tag 0x0C .state []

/-- DROP (R170, R178). -/
def execDrop (m : Mgmt) (slot : Byte) (number : BitVec 16) (s : State) : Result :=
  .next (s.takeMgmt (.drop m slot number) m 0x0C false
    fun x => x.onLetter m 0x0C slot number fun k l => x.dropCommand m k l)

/-! ### BLOCK_PEEK (R179) -/

/-- The arguments of a BLOCK_PEEK lie in range (R179). -/
def State.peekInRange (s : State) (block offset : BitVec 16) : Bool :=
  decide (block.toNat < s.ctl.settings.blocks) && decide (offset.toNat % 48 = 0) && decide (offset.toNat < 500)

/-- A BLOCK_PEEK that passes R164 up to its arguments (R179). -/
def State.blockPeekTaken (s : State) (m : Mgmt) (block offset : BitVec 16) : State :=
  if s.peekInRange block offset = false then s.reply m.tag 0x0D .badArg []
  else if s.peek.isSome then s.reply m.tag 0x0D .busy []
  else { s with peek := some { tag := m.tag, block := block, offset := offset } }.ask (.peekRead block offset)

/-- BLOCK_PEEK (R179). -/
def execBlockPeek (m : Mgmt) (block offset : BitVec 16) (s : State) : Result :=
  .next (s.takeMgmt (.blockPeek m block offset) m 0x0D false fun x => x.blockPeekTaken m block offset)

/-- The bytes a peek read fetches: up to the block's end, then zeros, and the two stored check bytes (R128). -/
def State.peekBytes (s : State) (block offset : BitVec 16) : List Byte :=
  padTo 48 (s.storeBytes (s.blockBase block + offset.toNat) (min 48 (512 - offset.toNat)))
    ++ s.storeBytes (s.blockBase block + 10) 2

/-- A peek read has completed: its REPLY (R179). -/
def State.endPeek (s : State) (bytes : List Byte) : State :=
  match s.peek with
  | some p => { s with peek := none }.reply p.tag 0x0D .ok (wordBytes p.block ++ wordBytes p.offset ++ bytes)
  | none => s

/-- PEEK_READ_DONE: a peek read ends COMPLETE (R128, R179). -/
def execPeekReadDone (changed : List Host.Cell) (s : State) : Result :=
  .next (match s.ctl.st with
    | .busy (.peekRead block offset) discarded =>
      let read := s.changeStore changed
      if discarded then read.endAccess else read.endAccess.endPeek (read.peekBytes block offset)
    | _ => s)

/-! ### VERIFY_BLOCK_READ_DONE (R175) -/

/-- A verify block read has ended COMPLETE with its check's outcome (R175, R127). -/
def State.verifyRead (s : State) (t : TakeId) (last : Bool) (outcome : Option BlockTest) (next : BlockNo)
    (frames : Nat) : State :=
  match s.verify, outcome with
  | some v, none => s.verifyGood v t last next frames
  | some v, some test => (s.latch .storeCheck).verifyBad v test
  | none, none => s
  | none, some _ => s.latch .storeCheck

/-- VERIFY_BLOCK_READ_DONE: a verify block read ends COMPLETE (R127, R175, R176). -/
def execVerifyBlockReadDone (changed : List Host.Cell) (s : State) : Result :=
  .next (match s.ctl.st with
    | .busy (.blockRead .verify b t first last) discarded =>
      let read := s.changeStore changed
      if discarded then read.endAccess
      else read.endAccess.verifyRead t last (read.blockCheck b t first last) (read.headerIn b).next
        (recordsFrames (read.recordsIn b))
    | _ => s)

end Sys2Proof.Machine
end

