-- ==== Sys2Proof/Machine/Reports.lean ====
section
/-!
DEFINITION. The timers' expiries and the take writer's reports, taken at the channel: IDLE_STOP_EXPIRY,
ABANDON_EXPIRY, STRETCH_END, STORE_FULL_STOP, LONG_STOP, WRITE_FAULT (R76 to R82).
-/

namespace Sys2Proof.Machine

/-! ### Timers (R80, R81) -/

/-- IDLE_STOP_EXPIRY: a running timer of a RECORDING channel expires (R80). -/
def execIdleStopExpiry (c : Chan) (s : State) : Result :=
  .next (if s.chans[c].state = .recording ∧ s.chans[c].idleTimer.isSome then s.beginStop c .autoStop else s)

/-- The letter of a STOPPED channel is submitted unattended with priority 3, or freed when empty; AUTO_SUBMIT is
offered with its number and its length as it stood; a pick may follow (R81). -/
def State.abandon (s : State) (c : Chan) : State :=
  ((s.submitLetter c 3 true).offerState c .autoSubmit (s.chanLength c) (s.chanLetterNo c)).emit

/-- ABANDON_EXPIRY: a running timer of a STOPPED channel expires (R81). -/
def execAbandonExpiry (c : Chan) (s : State) : Result :=
  .next (if s.chans[c].state = .stopped ∧ s.chans[c].abandonTimer.isSome then s.abandon c else s)

/-! ### Reports of the take writer (R76, R78, R79) -/

/-- The oldest report of some kinds for a channel. -/
def State.findReport (s : State) (c : Chan) (wanted : ReportKind → Bool) : Option Report :=
  s.reports.find? fun r => decide (r.chan = c) && wanted r.kind

/-- A report has been taken. -/
def State.dropReport (s : State) (r : Report) : State := { s with reports := s.reports.erase r }

/-- The channel is still writing the take in a state that has a recording to stop: RECORDING or STOPPING, or STOPPED
after a stop that ended at once (R78, R199, log 14). -/
def State.stopApplies (s : State) (c : Chan) (t : TakeId) : Bool :=
  s.writes c t && decide (s.chans[c].state ∈ [ChanState.recording, .stopping, .stopped])

/-- A stop report is taken: the five steps of R78, or no effect at the channel. -/
def State.stopReport (s : State) (r : Report) (report : StateReport) : State :=
  (if s.stopApplies r.chan r.take then s.stopAtChannel r.chan r.take report else s).dropReport r

/-- STRETCH_END: it completes the stop of the channel that is STOPPING with its take (R76). -/
def execStretchEnd (c : Chan) (s : State) : Result :=
  .next (match s.findReport c fun k => k = .stretchEnd with
    | some r =>
      let taken := s.dropReport r
      if taken.chans[c].state = .stopping ∧ taken.writes c r.take then taken.completeStop c r.take else taken
    | none => s)

/-- STORE_FULL_STOP (R78). -/
def execStoreFullStop (c : Chan) (s : State) : Result :=
  .next (match s.findReport c fun k => k = .storeFull with
    | some r => s.stopReport r .storeFullStop
    | none => s)

/-- LONG_STOP (R78). -/
def execLongStop (c : Chan) (s : State) : Result :=
  .next (match s.findReport c fun k => k = .long with
    | some r => s.stopReport r .longStop
    | none => s)

/-- The report is a write fault of either kind (R79). -/
def ReportKind.isWriteFault : ReportKind → Bool
  | .writeFault _ => true
  | .lateFault _ => true
  | _ => false

/-- A write fault at a close write: the cell carries the channel's values and the number of the take's letter; an
UNBOUND channel gets none (R79, R101). -/
def State.lateFault (s : State) (r : Report) (number : Nat) : State :=
  (if s.chans[r.chan].state = .unbound then s
    else s.offerState r.chan .writeFault (s.chanLength r.chan) number).dropReport r

/-- WRITE_FAULT (R79, R101). -/
def execWriteFault (c : Chan) (s : State) : Result :=
  .next (match s.findReport c ReportKind.isWriteFault with
    | some r => match r.kind with
      | .lateFault number => s.lateFault r number
      | _ => s.stopReport r .writeFault
    | none => s)

end Sys2Proof.Machine
end

