-- ==== Sys2Proof/Machine/Restart.lean ====
section
/-!
DEFINITION. RESTART (R183), with what each chapter says it does to its block (R10, R39, R57, R84, R115, R123, R135,
R158, R160, R191).
-/

namespace Sys2Proof.Machine

/-- A channel record after a restart: a bound channel is IDLE on its profile; an UNBOUND one is left, its edit mode and
instruct flag too (R84, log 33). -/
def Channel.restarted (ch : Channel) : Channel :=
  if ch.state = .unbound then ch else { Channel.reset with state := .idle, profile := ch.profile }

/-- An assembler after a restart: flushed, its expected sequence unknown (R57, R50). -/
def Assembler.restarted (a : Assembler) : Assembler := { a with buf := [], drops := 0, expected := none }

/-- The store controller at a restart: requests waiting are discarded; an access in progress runs to its end with its
outcome discarded, else the rebuild begins (R123, R135). Head, tail and free count report 0 (R134). -/
def StoreCtl.restarted (k : StoreCtl) : StoreCtl :=
  { k with
    st := match k.st with
      | .busy a _ => .busy a true
      | .idle => .rebuilding 0
      | x => x
    waiting := []
    head := 0
    tail := 0
    free := 0 }

/-- The emitter with no letter and no bytes, its pool sequence kept (R160). -/
def Emitter.cleared (e : Emitter) : Emitter := { Emitter.reset with poolSeq := e.poolSeq }

/-- The aborted close that becomes pending: a letter of which a cell has begun sending (R158). -/
def State.abortClose (s : State) : Option AbortClose :=
  match s.emitting with
  | some l =>
    if s.emitter.begun then
      some { chan := l.chan, missing := l.length - s.emitter.sent, check := s.emitter.sentCheck }
    else none
  | none => none

/-- The emitter at a restart: ABORT_PENDING kept, entered, or IDLE (R158, R159, R160). -/
def State.emitterRestarted (s : State) : Emitter :=
  if s.emitter.st = .abortPending then
    { s.emitter.cleared with st := .abortPending, abort := s.emitter.abort }
  else match s.abortClose with
    | some a => { s.emitter.cleared with st := .abortPending, abort := some a }
    | none => s.emitter.cleared

/-- A report that outlives a restart: a write fault at a close write, which depends on no take or channel state
(log 31). -/
def Report.outlivesRestart (r : Report) : Bool := !r.ofWriting

/-- What a restart does across the part in one event (R183). -/
def State.restarted (s : State) (tag : Byte) : State :=
  { s with
    asm := s.asm.map Assembler.restarted
    frames := []
    coder := .idle
    ctx := Vector.ofFn fun c : Chan => s.freshCtx c
    chans := s.chans.map Channel.restarted
    letters := Vector.replicate 48 none
    takes := Vector.replicate 128 none
    writer := .reset
    stretch := Vector.replicate 24 none
    reports := s.reports.filter Report.outlivesRestart
    ctl := s.ctl.restarted
    emitter := s.emitterRestarted
    steps := Vector.replicate 48 0
    dev := Vector.replicate 13 .clear
    chanConds := Vector.replicate 24 .clear
    verify := none
    peek := none
    restart := some tag }

/-- A RESTART that passes R164; the aborted close may begin at once (R183, R159). -/
def State.restartTaken (s : State) (m : Mgmt) : State :=
  if s.save.isSome then s.reply m.tag 0x13 .busy [] else (s.restarted m.tag).emit

/-- RESTART (R183). -/
def execRestart (m : Mgmt) (s : State) : Result :=
  .next (s.takeMgmt (.restart m) m 0x13 false fun x => x.restartTaken m)

end Sys2Proof.Machine
end

