-- ==== Sys2Proof/Machine/Saves.lean ====
section
/-!
DEFINITION. Saving the configuration: CONFIG_SAVE, CONFIG_PIECE_TRANSFER_END, CONFIG_WRITE_ACK, CONFIG_WRITE_TIMEOUT
(R182, R197, R198).
-/

namespace Sys2Proof.Machine

/-- What area A is to hold (R182). -/
def State.areaA (s : State) : AreaA := { settings := s.ctl.settings, error := s.errMask, warning := s.warnMask }

/-- What area B is to hold (R182). -/
def State.areaB (s : State) : AreaB := { profiles := s.profiles, bindings := s.chans.map Channel.profile }

/-- A run of bytes in pieces of 16, the last one shorter, from an address on (R197). The first argument bounds their
number. -/
def piecesFrom : Nat → Nat → List Byte → List (Nat × List Byte)
  | 0, _, _ => []
  | fuel + 1, a, bytes => if bytes.isEmpty then [] else (a, bytes.take 16) :: piecesFrom fuel (a + 16) (bytes.drop 16)

/-- The 19 pieces of a save, in order (R197). -/
def State.savePieces (s : State) : List (Nat × List Byte) :=
  piecesFrom 1 Area.a.base s.areaA.bytes ++ piecesFrom 18 Area.b.base s.areaB.bytes

/-- A CONFIG_SAVE that passes R164 (R182). -/
def State.saveTaken (s : State) (m : Mgmt) : State :=
  if s.save.isSome then s.reply m.tag 0x12 .busy []
  else { s with save := some { tag := m.tag, pieces := s.savePieces, polling := false } }

/-- CONFIG_SAVE (R182). -/
def execConfigSave (m : Mgmt) (s : State) : Result :=
  .next (s.takeMgmt (.configSave m) m 0x12 false fun x => x.saveTaken m)

/-- The save fails at its piece: some of the piece's bytes may have been placed, CONFIG_WRITE_FAIL is latched, and the
REPLY carries FAULT (R182, R198). -/
def State.saveFailed (s : State) (v : SaveCtx) (placed : List Bool) : State :=
  let left := match v.pieces with
    | piece :: _ => { s with cfgMem := Memory.putMarked s.cfgMem piece.1 piece.2 placed }
    | [] => s
  ({ left with save := none }.latch .configWriteFail).reply v.tag 0x12 .fault []

/-- The save goes on to its next piece, or ends OK after the last (R197, R182). -/
def State.pieceWritten (s : State) (v : SaveCtx) : State :=
  match v.pieces with
  | piece :: rest =>
    let written := { s with cfgMem := Memory.putBytes s.cfgMem piece.1 piece.2 }
    if rest.isEmpty then { written with save := none }.reply v.tag 0x12 .ok []
    else { written with save := some { v with pieces := rest, polling := false } }
  | [] => { s with save := none }.reply v.tag 0x12 .ok []

/-- CONFIG_PIECE_TRANSFER_END: the part polls for the end of the internal write, or the save fails (R197, R198). -/
def execConfigPieceTransferEnd (acked : Bool) (placed : List Bool) (s : State) : Result :=
  .next (match s.save with
    | some v =>
      if v.polling then s
      else if acked then { s with save := some { v with polling := true } }
      else s.saveFailed v placed
    | none => s)

/-- CONFIG_WRITE_ACK: the internal write of the piece has ended (R197). -/
def execConfigWriteAck (s : State) : Result :=
  .next (match s.save with
    | some v => if v.polling then s.pieceWritten v else s
    | none => s)

/-- CONFIG_WRITE_TIMEOUT: no acknowledge 20 ms after the transfer (R198). -/
def execConfigWriteTimeout (placed : List Bool) (s : State) : Result :=
  .next (match s.save with
    | some v => if v.polling then s.saveFailed v placed else s
    | none => s)

end Sys2Proof.Machine
end

