-- ==== Sys2Proof/Machine/Startup.lean ====
section
/-!
DEFINITION. Full reset and start-up: FULL_RESET, BUS_RELEASE_END, CONFIG_READ_ATTEMPT_END (R193 to R196, R38, R123).
-/

namespace Sys2Proof.Machine

/-! ### FULL_RESET -/

/-- A store write that a full reset cuts may have placed some of its bytes (R123). -/
def State.cutStore (s : State) (placed : List Bool) : State :=
  match s.ctl.st with
  | .busy a _ => s.performMarked a placed
  | .rebuilding i => s.performMarked (s.rebuildWrite i) placed
  | _ => s

/-- A configuration piece that a full reset cuts holds the copy's bytes, its old bytes, or a mixture (R198). -/
def State.cutPiece (s : State) (saved : List Bool) : State :=
  match s.save with
  | some v => match v.pieces with
    | piece :: _ => { s with cfgMem := Memory.putMarked s.cfgMem piece.1 piece.2 saved }
    | [] => s
  | none => s

/-- FULL_RESET: everything inside the part takes its reset value; the external memories, the level of *HOLD* and the
commands still to come are outside it (R193; log 10, log 20). -/
def execFullReset (placed saved : List Bool) (s : State) : Result :=
  .next { State.reset with
    pending := s.pending
    hold := s.hold
    store := (s.cutStore placed).store
    cfgMem := (s.cutPiece saved).cfgMem }

/-! ### BUS_RELEASE_END -/

/-- BUS_RELEASE_END: POWER_ON ends, and the first attempt to read area A begins (R193, R194). -/
def execBusReleaseEnd (s : State) : Result :=
  .next (if s.startup.state = .powerOn then
    { s with startup := { s.startup with state := .configLoad, area := .a, attempt := 1 } }
  else s)

/-! ### CONFIG_READ_ATTEMPT_END -/

/-- Area A is settled: its masks take effect, its settings are held, and area B's first attempt begins
(R194, R195). -/
def State.settleA (s : State) (a : AreaA) : State :=
  { s.setMasks a.error a.warning with startup := { s.startup with area := .b, attempt := 1, held := a.settings } }

/-- A channel as area B binds it: IDLE on its profile, or left as it is (R38). -/
def Channel.boundBy (ch : Channel) (binding : Option ProfileId) : Channel :=
  match binding with
  | some p => { ch with state := .idle, profile := some p }
  | none => ch

/-- Area B is settled and CONFIG_LOAD ends: profiles, bindings and gains are set, the store controller takes its
settings and starts its rebuild, start-up enters STORE_INIT (R38, R195, R10, R116). -/
def State.settleB (s : State) (b : AreaB) : State :=
  { s with
    startup := { s.startup with state := .storeInit }
    profiles := b.profiles
    chans := Vector.ofFn fun c : Chan => s.chans[c].boundBy b.bindings[c]
    ctx := Vector.ofFn fun c : Chan => match b.bindings[c] with
      | some p => { s.ctx[c] with g := b.profiles[p].g0 }
      | none => s.ctx[c]
    ctl := { s.ctl with st := .rebuilding 0, settings := s.startup.held } }

/-- Area A takes its defaults, and CONFIG_A_DEFAULT is latched (R194). -/
def State.defaultA (s : State) : State := (s.settleA .default).latch .configADefault

/-- Area B takes its defaults, and CONFIG_B_DEFAULT is latched (R194, R38). -/
def State.defaultB (s : State) : State := (s.settleB .default).latch .configBDefault

/-- The configuration memory's bytes at these addresses differ, by causes outside the part (log 6). -/
def State.changeConfig (s : State) (changed : List Host.Cell) : State :=
  { s with cfgMem := Memory.change s.cfgMem Config.configTop changed }

/-- The data bytes of an area, if a read of it delivers them with a check that matches (R192, R194). -/
def State.readArea (s : State) (area : Area) : Option (List Byte) :=
  let data := s.configBytes area.base area.dataBytes
  if crc16 data = wordAt (s.configBytes (area.base + area.dataBytes) 2) 0 then some data else none

/-- A failed attempt: another follows, or after the third the defaults are taken (R194). -/
def State.attemptFailed (s : State) : State :=
  if s.startup.attempt < 3 then { s with startup := { s.startup with attempt := s.startup.attempt + 1 } }
  else match s.startup.area with
    | .a => s.defaultA
    | .b => s.defaultB

/-- An attempt that reads good settles its area: on its contents, or at once on its defaults when they are not valid
(R194, R38). -/
def State.attemptGood (s : State) (data : List Byte) : State :=
  match s.startup.area with
  | .a => match AreaA.read data with
    | some a => s.settleA a
    | none => s.defaultA
  | .b => match AreaB.read data with
    | some b => s.settleB b
    | none => s.defaultB

/-- CONFIG_READ_ATTEMPT_END (R194, R195). -/
def execConfigReadAttemptEnd (acked : Bool) (changed : List Host.Cell) (s : State) : Result :=
  .next (if s.startup.state = .configLoad then
    let read := s.changeConfig changed
    match acked, read.readArea read.startup.area with
    | true, some data => read.attemptGood data
    | _, _ => read.attemptFailed
  else s)

end Sys2Proof.Machine
end

