-- ==== Sys2Proof/Machine/StatusCells.lean ====
section
/-!
DEFINITION. Conditions and masks: STATUS_READ, STATUS_CLEAR, MASK_WRITE (R180, R181, R187, R188).
-/

namespace Sys2Proof.Machine

/-! ### STATUS_READ -/

/-- The summary byte: bit 1 holds E, bit 0 holds W (R203). -/
def State.summary (s : State) : Nat := bitsValue [s.warningFlag, s.errorFlag]

/-- One listed channel (R203). -/
def State.statusItem (s : State) (c : Chan) : List Byte := be8 c.number ++ be8 s.chanConds[c].bits

/-- The fields of STATUS_READ (R180, R203). -/
def State.statusFields (s : State) : List Byte :=
  be16 s.deviceStates ++ be16 s.deviceMarks ++ [s.errMask, s.warnMask] ++ be8 s.summary
    ++ be8 s.listedChannels.length ++ s.listedChannels.flatMap s.statusItem

/-- STATUS_READ: the REPLY reports the device conditions and those of the channels listed (R180, R187, log 19). -/
def execStatusRead (m : Mgmt) (s : State) : Result :=
  .next (s.takeMgmt (.statusRead m) m 0x0F true
    fun x => x.reportDevice.reportListed.reply m.tag 0x0F .ok x.statusFields)

/-! ### STATUS_CLEAR -/

/-- The clear of the device conditions named, and of those of a channel, if one is named (R188). -/
def State.clearConds (s : State) (device : BitVec 16) (c : Option Chan) (conditions : Byte) : State :=
  match c with
  | some c => (s.clearDevice device).modChanConds c fun k => k.clearNamed conditions
  | none => s.clearDevice device

/-- The conditions a STATUS_CLEAR's REPLY reports have their new marks cleared (R187). -/
def State.reportCleared (s : State) (c : Option Chan) : State :=
  match c with
  | some c => s.reportDevice.reportChannel c
  | none => s.reportDevice

/-- The fields of STATUS_CLEAR, from the state after the clear; what was cleared unseen comes from the state before
(R180, R188, R203). Where channel 0 names none, the two bytes of its conditions are 0 (log 36). -/
def State.clearFields (cleared before : State) (device : BitVec 16) (c : Option Chan) (conditions : Byte) :
    List Byte :=
  be16 cleared.deviceStates ++ be16 cleared.deviceMarks ++ be8 (c.elim 0 Chan.number)
    ++ be8 (c.elim 0 fun x => cleared.chanConds[x].bits) ++ be16 (before.deviceUnseen device)
    ++ be8 (c.elim 0 fun x => before.chanConds[x].unseen conditions)

/-- A STATUS_CLEAR with its channel in range (R180, R188). -/
def State.statusCleared (s : State) (m : Mgmt) (device : BitVec 16) (c : Option Chan) (conditions : Byte) : State :=
  let cleared := s.clearConds device c conditions
  (cleared.reportCleared c).reply m.tag 0x10 .ok (cleared.clearFields s device c conditions)

/-- A STATUS_CLEAR that passes R164 up to its arguments: channel 0 names none (R180). -/
def State.statusClearTaken (s : State) (m : Mgmt) (device : BitVec 16) (channel conditions : Byte) : State :=
  if 24 < channel.toNat then s.reply m.tag 0x10 .badArg []
  else s.statusCleared m device (chanOf channel) conditions

/-- STATUS_CLEAR (R180, R188). -/
def execStatusClear (m : Mgmt) (device : BitVec 16) (channel conditions : Byte) (s : State) : Result :=
  .next (s.takeMgmt (.statusClear m device channel conditions) m 0x10 false
    fun x => x.statusClearTaken m device channel conditions)

/-! ### MASK_WRITE -/

/-- Both masks as held (R203). -/
def State.maskFields (s : State) : List Byte := [s.errMask, s.warnMask]

/-- MASK_WRITE (R181). -/
def execMaskWrite (m : Mgmt) (error warning : Byte) (s : State) : Result :=
  .next (s.takeMgmt (.maskWrite m error warning) m 0x11 false
    fun x => (x.setMasks error warning).reply m.tag 0x11 .ok (x.setMasks error warning).maskFields)

end Sys2Proof.Machine
end

