-- ==== Sys2Proof/Machine/WriterEvents.lean ====
section
/-!
DEFINITION. The take writer's steps and the ends of its accesses: TAKE_WRITER_TAKE_WORK, RECORD_WRITE_DONE,
HEADER_WRITE_DONE, WALK_HEADER_READ_DONE, RING_READ_DONE, RING_WRITE_DONE, REBUILD_WRITE_DONE, READY_TIMEOUT (R90 to
R101, R119 to R123, R130 to R135). At the end of an access the arbiter grants among the requests waiting, and then the
requester goes on (R122, log 11).
-/

namespace Sys2Proof.Machine

/-- TAKE_WRITER_TAKE_WORK (R95). -/
def execTakeWriterTakeWork (s : State) : Result := .next s.takeWork

/-! ### Writes -/

/-- The item in hand goes on once its record or gap count write has completed (R97, R98). -/
def State.afterRecordWrite (s : State) : State :=
  match s.writer.hand with
  | some (.job j) => s.frameStored j
  | _ => s

/-- A record write or gap count write ends COMPLETE; after a restart its outcome is discarded (R123). -/
def State.recordWritten (s : State) (a : Access) (discarded : Bool) : State :=
  let ended := (s.performWrite a).endAccess
  if discarded then ended else ended.afterRecordWrite

/-- RECORD_WRITE_DONE: a record write or gap count write ends COMPLETE (R97, R98). -/
def execRecordWriteDone (s : State) : Result :=
  .next (match s.ctl.st with
    | .busy (.recordWrite b offset bytes) discarded => s.recordWritten (.recordWrite b offset bytes) discarded
    | .busy (.gapCountWrite b offset count) discarded => s.recordWritten (.gapCountWrite b offset count) discarded
    | _ => s)

/-- What goes on once a header write has completed: a close write ends, or the new block is linked (R90, R97). -/
def State.afterHeaderWrite (s : State) : State :=
  match s.writer.hand with
  | some (.close t _) => s.endClose t
  | some (.job j) => match j.phase with
    | .closeOld b _ => s.linkBlock j b
    | _ => s
  | _ => s

/-- HEADER_WRITE_DONE: a header write ends COMPLETE (R90, R97). -/
def execHeaderWriteDone (s : State) : Result :=
  .next (match s.ctl.st with
    | .busy (.headerWrite b bytes) discarded =>
      let ended := (s.performWrite (.headerWrite b bytes)).endAccess
      if discarded then ended else ended.afterHeaderWrite
    | _ => s)

/-! ### Walks and the ring -/

/-- The walk step that waits for its header goes on with it (R92, R93). -/
def State.afterHeaderRead (s : State) (b : BlockNo) (h : BlockHeader) : State :=
  match s.writer.hand with
  | some (.walk t (.header again)) => s.walkHeaderRead t b h (.walk t (.header again)) fun w => .walk t w
  | some (.job j) => match j.phase with
    | .walk t (.header _) => s.walkHeaderRead t b h (.job j) fun w => .job { j with phase := .walk t w }
    | _ => s
  | _ => s

/-- WALK_HEADER_READ_DONE: a header read ends COMPLETE (R92, R93, R128). -/
def execWalkHeaderReadDone (changed : List Host.Cell) (s : State) : Result :=
  .next (match s.ctl.st with
    | .busy (.headerRead b) discarded =>
      let read := s.changeStore changed
      if discarded then read.endAccess else read.endAccess.afterHeaderRead b (read.headerIn b)
    | _ => s)

/-- The item that waits for its block gets it (R97, R130). -/
def State.afterRingRead (s : State) (b : BlockNo) : State :=
  match s.writer.hand with
  | some (.job j) => s.blockAllocated j b
  | _ => s

/-- RING_READ_DONE: an allocation's ring read ends COMPLETE (R130). -/
def execRingReadDone (changed : List Host.Cell) (s : State) : Result :=
  .next (match s.ctl.st with
    | .busy (.ringRead slot) discarded =>
      let read := s.changeStore changed
      if discarded then read.endAccess else read.takeFromRing.endAccess.afterRingRead (read.ringSlot slot)
    | _ => s)

/-- The take's first block and block count change at a walk step's return, or a block that could not be linked is
back in the ring (R131, R92, R101). -/
def State.afterRingWrite (s : State) : State :=
  match s.writer.hand with
  | some (.walk t (.giveBack next)) => (s.blockReturned t next).afterWalk (.walk t (.giveBack next))
  | some (.job j) => match j.phase with
    | .walk t (.giveBack next) => (s.blockReturned t next).afterWalk (.job j)
    | .handBack => s.endJob j .refused
    | _ => s
  | _ => s

/-- RING_WRITE_DONE: a return's ring write ends COMPLETE (R131). -/
def execRingWriteDone (s : State) : Result :=
  .next (match s.ctl.st with
    | .busy (.ringWrite slot b) discarded =>
      let written := s.performWrite (.ringWrite slot b)
      if discarded then written.endAccess else written.giveToRing.endAccess.afterRingWrite
    | _ => s)

/-! ### The rebuild (R134, R135, R183) -/

/-- Start-up enters READY at the end of the rebuild it waits for (R193). -/
def State.startupReady (s : State) : State :=
  if s.startup.state = .storeInit then { s with startup := { s.startup with state := .ready } } else s

/-- A restart ends with the rebuild, and its REPLY is offered (R183). -/
def State.endRestart (s : State) : State :=
  match s.restart with
  | some tag => { s with restart := none }.reply tag 0x13 .ok (be16 s.usableCount ++ be16 s.ctl.free)
  | none => s

/-- REBUILD_WRITE_DONE: the next slot is written, or the rebuild is complete (R134). -/
def execRebuildWriteDone (s : State) : Result :=
  .next (match s.ctl.st with
    | .rebuilding i =>
      let written := s.performWrite (s.rebuildWrite i)
      if i + 1 < s.ctl.settings.usable then written.modCtl fun k => { k with st := .rebuilding (i + 1) }
      else written.endRebuild.startupReady.endRestart
    | _ => s)

/-! ### READY_TIMEOUT (R120, R93, R101, R132, R153, R175, R179) -/

/-- A record write or gap count write has timed out: once more, or a write fault while the take is being written
(R101). -/
def State.recordWriteTimedOut (s : State) (a : Access) : State :=
  match s.writer.hand with
  | some (.job j) => match j.phase with
    | .write false => (s.inHand (.job { j with phase := .write true })).ask a
    | _ => if s.live j.chan j.take then (s.writeFaultAt j false).endJob j .stopped else s.endJob j .refused
  | _ => s

/-- A header write has timed out: once more, or a write fault, of a close write or of the closing header of the
current block (R101). -/
def State.headerWriteTimedOut (s : State) (a : Access) : State :=
  match s.writer.hand with
  | some (.close t again) => if again then (s.closeFaultAt t).endClose t else (s.inHand (.close t true)).ask a
  | some (.job j) => match j.phase with
    | .closeOld b again =>
      if again then (if s.live j.chan j.take then s.writeFaultAt j true else s).handBack j b
      else (s.inHand (.job { j with phase := .closeOld b true })).ask a
    | _ => s
  | _ => s

/-- A walk's header read has timed out: once more, or the walk stops (R93). -/
def State.headerReadTimedOut (s : State) (a : Access) : State :=
  match s.writer.hand with
  | some (.walk t (.header again)) =>
    if again then (s.strand t).afterWalk (.walk t (.header again)) else (s.inHand (.walk t (.header true))).ask a
  | some (.job j) => match j.phase with
    | .walk t (.header again) =>
      if again then (s.strand t).afterWalk (.job j)
      else (s.inHand (.job { j with phase := .walk t (.header true) })).ask a
    | _ => s
  | _ => s

/-- An emitter block read has timed out: the emission ends at it with STORE_FAULT (R153). -/
def State.emitterReadTimedOut (s : State) : State :=
  match s.emitter.st, s.emitting with
  | .reading, some l => (s.closeFault l).emit
  | _, _ => s

/-- A verify block read has timed out: a bad block (R175). -/
def State.verifyReadTimedOut (s : State) : State :=
  match s.verify with
  | some v => s.verifyBad v .timeout
  | none => s

/-- A peek read has timed out: FAULT, the bytes zero (R179). -/
def State.peekTimedOut (s : State) : State :=
  match s.peek with
  | some p => { s with peek := none }.reply p.tag 0x0D .fault (wordBytes p.block ++ wordBytes p.offset)
  | none => s

/-- An access of a requester has ended TIMEOUT, and the requester goes on by its own rule. -/
def State.accessTimedOut (s : State) : Access → State
  | .recordWrite b offset bytes => s.recordWriteTimedOut (.recordWrite b offset bytes)
  | .gapCountWrite b offset count => s.recordWriteTimedOut (.gapCountWrite b offset count)
  | .headerWrite b bytes => s.headerWriteTimedOut (.headerWrite b bytes)
  | .headerRead b => s.headerReadTimedOut (.headerRead b)
  | .ringRead _ => s
  | .ringWrite _ _ => s
  | .blockRead .emitter _ _ _ _ => s.emitterReadTimedOut
  | .blockRead .verify _ _ _ _ => s.verifyReadTimedOut
  | .peekRead _ _ => s.peekTimedOut

/-- A ring access, which is made again at once and keeps the bus (R132). -/
def Access.isRing : Access → Bool
  | .ringRead _ => true
  | .ringWrite _ _ => true
  | _ => false

/-- The access in progress, or the rebuild's ring write, ends TIMEOUT (R120): a ring access is made again, another is
ended, and a discarded one gives way to the rebuild (R123). -/
def State.timedOut (s : State) (placed : List Bool) : State :=
  match s.ctl.st with
  | .rebuilding i => (s.latch .storeTimeout).performMarked (s.rebuildWrite i) placed
  | .busy a discarded =>
    let latched := (s.latch .storeTimeout).performMarked a placed
    if discarded then latched.endAccess
    else if a.isRing then latched
    else latched.endAccess.accessTimedOut a
  | _ => s

/-- READY_TIMEOUT: only in wait mode READY (R119, R120). -/
def execReadyTimeout (placed : List Bool) (s : State) : Result :=
  .next (if s.ctl.settings.wait = .onReady then s.timedOut placed else s)

end Sys2Proof.Machine
end

