-- ==== Sys2Proof/Machine/Dispatch.lean ====
section
/-!
DEFINITION. The dispatch: one arm for each command.
-/

namespace Sys2Proof.Machine

def exec (i : Instr) (s : State) : Host.Outcome State Fault Refusal :=
  match i with
  | .fullReset placed saved => Sys2Proof.Machine.execFullReset placed saved s
  | .busReleaseEnd => Sys2Proof.Machine.execBusReleaseEnd s
  | .configReadAttemptEnd acked changed => Sys2Proof.Machine.execConfigReadAttemptEnd acked changed s
  | .huntByteTest b0 b1 b2 b3 => Sys2Proof.Machine.execHuntByteTest b0 b1 b2 b3 s
  | .presyncHeader cell => Sys2Proof.Machine.execPresyncHeader cell s
  | .intakeCell cell => Sys2Proof.Machine.execIntakeCell cell s
  | .audio c seq samples => Sys2Proof.Machine.execAudio c seq samples s
  | .record c => Sys2Proof.Machine.execRecord c s
  | .stop c => Sys2Proof.Machine.execStop c s
  | .seek c mode value => Sys2Proof.Machine.execSeek c mode value s
  | .editmode c mode => Sys2Proof.Machine.execEditmode c mode s
  | .instruct c on => Sys2Proof.Machine.execInstruct c on s
  | .erase c count => Sys2Proof.Machine.execErase c count s
  | .submit c priority => Sys2Proof.Machine.execSubmit c priority s
  | .discard c => Sys2Proof.Machine.execDiscard c s
  | .position c => Sys2Proof.Machine.execPosition c s
  | .controlUnknown c code => Sys2Proof.Machine.execControlUnknown c code s
  | .idleStopExpiry c => Sys2Proof.Machine.execIdleStopExpiry c s
  | .abandonExpiry c => Sys2Proof.Machine.execAbandonExpiry c s
  | .stretchEnd c => Sys2Proof.Machine.execStretchEnd c s
  | .storeFullStop c => Sys2Proof.Machine.execStoreFullStop c s
  | .longStop c => Sys2Proof.Machine.execLongStop c s
  | .writeFault c => Sys2Proof.Machine.execWriteFault c s
  | .coderTakeFrame => Sys2Proof.Machine.execCoderTakeFrame s
  | .coderArithmeticDone => Sys2Proof.Machine.execCoderArithmeticDone s
  | .takeWriterTakeWork => Sys2Proof.Machine.execTakeWriterTakeWork s
  | .recordWriteDone => Sys2Proof.Machine.execRecordWriteDone s
  | .headerWriteDone => Sys2Proof.Machine.execHeaderWriteDone s
  | .walkHeaderReadDone changed => Sys2Proof.Machine.execWalkHeaderReadDone changed s
  | .ringReadDone changed => Sys2Proof.Machine.execRingReadDone changed s
  | .ringWriteDone => Sys2Proof.Machine.execRingWriteDone s
  | .rebuildWriteDone => Sys2Proof.Machine.execRebuildWriteDone s
  | .emitterBlockReadDone changed => Sys2Proof.Machine.execEmitterBlockReadDone changed s
  | .verifyBlockReadDone changed => Sys2Proof.Machine.execVerifyBlockReadDone changed s
  | .peekReadDone changed => Sys2Proof.Machine.execPeekReadDone changed s
  | .readyTimeout placed => Sys2Proof.Machine.execReadyTimeout placed s
  | .holdAssert => Sys2Proof.Machine.execHoldAssert s
  | .holdNegate => Sys2Proof.Machine.execHoldNegate s
  | .poolCellEnd => Sys2Proof.Machine.execPoolCellEnd s
  | .returnCellEnd => Sys2Proof.Machine.execReturnCellEnd s
  | .mgmtUnknown m code => Sys2Proof.Machine.execMgmtUnknown m code s
  | .ident m => Sys2Proof.Machine.execIdent m s
  | .profileWrite m profile fields => Sys2Proof.Machine.execProfileWrite m profile fields s
  | .profileRead m profile => Sys2Proof.Machine.execProfileRead m profile s
  | .channelBind m channel profile => Sys2Proof.Machine.execChannelBind m channel profile s
  | .channelRead m channel => Sys2Proof.Machine.execChannelRead m channel s
  | .channelClear m channel => Sys2Proof.Machine.execChannelClear m channel s
  | .letterList m first => Sys2Proof.Machine.execLetterList m first s
  | .letterRead m slot => Sys2Proof.Machine.execLetterRead m slot s
  | .mapRead m slot index => Sys2Proof.Machine.execMapRead m slot index s
  | .letterVerify m slot number => Sys2Proof.Machine.execLetterVerify m slot number s
  | .emitAgain m slot number => Sys2Proof.Machine.execEmitAgain m slot number s
  | .drop m slot number => Sys2Proof.Machine.execDrop m slot number s
  | .blockPeek m block offset => Sys2Proof.Machine.execBlockPeek m block offset s
  | .storeRead m => Sys2Proof.Machine.execStoreRead m s
  | .statusRead m => Sys2Proof.Machine.execStatusRead m s
  | .statusClear m device channel conditions => Sys2Proof.Machine.execStatusClear m device channel conditions s
  | .maskWrite m error warning => Sys2Proof.Machine.execMaskWrite m error warning s
  | .configSave m => Sys2Proof.Machine.execConfigSave m s
  | .configPieceTransferEnd acked placed => Sys2Proof.Machine.execConfigPieceTransferEnd acked placed s
  | .configWriteAck => Sys2Proof.Machine.execConfigWriteAck s
  | .configWriteTimeout placed => Sys2Proof.Machine.execConfigWriteTimeout placed s
  | .restart m => Sys2Proof.Machine.execRestart m s

end Sys2Proof.Machine
end

