-- ==== Sys2Proof/Machine/Step.lean ====
section
/-!
DEFINITION. One step: the command at the front of the queue is taken.
-/

namespace Sys2Proof.Machine

/-- The part with the front command off its queue. -/
def State.withPending (s : State) (queue : List Instr) : State := { s with pending := queue }

/-- The command at the front is carried out with the queue's rest; on an empty queue the part idles (log 2). -/
def step (s : State) : Host.Outcome State Fault Refusal :=
  match s.pending with
  | [] => .next s
  | i :: rest => exec i (s.withPending rest)

/-- The command a word spells, put at the front of the queue; no row of the table gives bits, so no word spells one
(log 26). -/
def State.withFetchWord (s : State) (nbits w : Nat) : State :=
  match decodeTableWord nbits w with
  | some i => s.withPending (i :: s.pending)
  | none => s

end Sys2Proof.Machine
end

