-- ==== Sys2Proof/Safety.lean ====
section
/-!
DEFINITION. The terms in which claims speak of the part: what a change leaves as it was, when a command is served, and
the properties that every step keeps (the manual's laws and tables).
-/

namespace Sys2Proof.Machine

/-! ### What a change leaves as it was -/

/-- The items of the state, one for each field. -/
inductive Part where
  | pending
  | handed
  | startup
  | cfgMem
  | port
  | ret
  | asm
  | frames
  | coder
  | ctx
  | profiles
  | chans
  | letters
  | letterNo
  | takes
  | writer
  | stretch
  | reports
  | store
  | ctl
  | emitter
  | steps
  | pool
  | hold
  | dev
  | chanConds
  | errMask
  | warnMask
  | verify
  | peek
  | save
  | restart
deriving DecidableEq, Repr

/-- Two states agree on an item. -/
def State.agree (s t : State) : Part → Prop
  | .pending => s.pending = t.pending
  | .handed => s.handed = t.handed
  | .startup => s.startup = t.startup
  | .cfgMem => s.cfgMem = t.cfgMem
  | .port => s.port = t.port
  | .ret => s.ret = t.ret
  | .asm => s.asm = t.asm
  | .frames => s.frames = t.frames
  | .coder => s.coder = t.coder
  | .ctx => s.ctx = t.ctx
  | .profiles => s.profiles = t.profiles
  | .chans => s.chans = t.chans
  | .letters => s.letters = t.letters
  | .letterNo => s.letterNo = t.letterNo
  | .takes => s.takes = t.takes
  | .writer => s.writer = t.writer
  | .stretch => s.stretch = t.stretch
  | .reports => s.reports = t.reports
  | .store => s.store = t.store
  | .ctl => s.ctl = t.ctl
  | .emitter => s.emitter = t.emitter
  | .steps => s.steps = t.steps
  | .pool => s.pool = t.pool
  | .hold => s.hold = t.hold
  | .dev => s.dev = t.dev
  | .chanConds => s.chanConds = t.chanConds
  | .errMask => s.errMask = t.errMask
  | .warnMask => s.warnMask = t.warnMask
  | .verify => s.verify = t.verify
  | .peek => s.peek = t.peek
  | .save => s.save = t.save
  | .restart => s.restart = t.restart

/-- Nothing but the items listed has changed from `s` to `t`. -/
def Frame (changed : List Part) (s t : State) : Prop := ∀ p, p ∉ changed → s.agree t p

/-- What is kept for each channel has not changed for any channel but `c`. -/
abbrev OnlyChannel (c : Chan) (s t : State) : Prop :=
  ∀ d : Chan, d ≠ c →
    t.chans[d] = s.chans[d] ∧ t.asm[d] = s.asm[d] ∧ t.ctx[d] = s.ctx[d] ∧ t.stretch[d] = s.stretch[d] ∧
      t.chanConds[d] = s.chanConds[d]

/-- No slot but `k` has changed. -/
abbrev OnlySlot (k : Slot) (s t : State) : Prop := ∀ j : Slot, j ≠ k → t.letters[j] = s.letters[j]

/-- No take but `t` has changed. -/
abbrev OnlyTake (t : TakeId) (s u : State) : Prop := ∀ x : TakeId, x ≠ t → u.takes[x] = s.takes[x]

/-! ### When a command is served -/

/-- CONTROL cells of channel `c` pass tests 1 and 2 of R61, and the channel is in state `x`. -/
abbrev State.serves (s : State) (c : Chan) (x : ChanState) : Prop :=
  s.startup.state = .ready ∧ s.restart = none ∧ s.chans[c].state = x

/-- MGMT cells pass tests 1 and 3 of R164. -/
abbrev State.servesHost (s : State) : Prop := s.startup.state = .ready ∧ s.restart = none

/-- The channel holds letter `l` open in slot `k`. -/
abbrev State.holdsOpen (s : State) (c : Chan) (k : Slot) (l : Letter) : Prop :=
  s.chans[c].slot = some k ∧ s.letters[k] = some l

/-- The access in progress is `a`, and its outcome goes to its requester. -/
abbrev State.serving (s : State) (a : Access) : Prop := s.ctl.st = .busy a false

/-- A CONTROL row with a known command: its channel, its command code, and the states that accept it (R61, R63). -/
def controlRow : Instr → Option (Chan × Byte × List ChanState)
  | .record c => some (c, 1, [.idle, .stopped, .recording])
  | .stop c => some (c, 2, [.stopped, .recording])
  | .seek c _ _ => some (c, 3, [.stopped])
  | .editmode c _ => some (c, 4, [.idle, .stopped])
  | .instruct c _ => some (c, 5, [.idle, .stopped])
  | .erase c _ => some (c, 6, [.stopped])
  | .submit c _ => some (c, 7, [.stopped, .recording])
  | .discard c => some (c, 8, [.stopped, .recording, .stopping])
  | .position c => some (c, 9, [.idle, .stopped, .recording, .stopping])
  | _ => none

/-- A MGMT row with a known command: its head, its command byte, and whether it is served before start-up is complete
(R164, R203). -/
def mgmtRow : Instr → Option (Mgmt × Byte × Bool)
  | .ident m => some (m, 0x01, true)
  | .profileWrite m _ _ => some (m, 0x02, false)
  | .profileRead m _ => some (m, 0x03, false)
  | .channelBind m _ _ => some (m, 0x04, false)
  | .channelRead m _ => some (m, 0x05, false)
  | .channelClear m _ => some (m, 0x06, false)
  | .letterList m _ => some (m, 0x07, false)
  | .letterRead m _ => some (m, 0x08, false)
  | .mapRead m _ _ => some (m, 0x09, false)
  | .letterVerify m _ _ => some (m, 0x0A, false)
  | .emitAgain m _ _ => some (m, 0x0B, false)
  | .drop m _ _ => some (m, 0x0C, false)
  | .blockPeek m _ _ => some (m, 0x0D, false)
  | .storeRead m => some (m, 0x0E, false)
  | .statusRead m => some (m, 0x0F, true)
  | .statusClear m _ _ _ => some (m, 0x10, false)
  | .maskWrite m _ _ => some (m, 0x11, false)
  | .configSave m => some (m, 0x12, false)
  | .restart m => some (m, 0x13, false)
  | _ => none

/-- The channel whose record, audio, timers or take a command or event bears on (R45, R76, R78 to R81). -/
def channelRow : Instr → Option Chan
  | .audio c _ _ => some c
  | .controlUnknown c _ => some c
  | .idleStopExpiry c => some c
  | .abandonExpiry c => some c
  | .stretchEnd c => some c
  | .storeFullStop c => some c
  | .longStop c => some c
  | .writeFault c => some c
  | i => (controlRow i).map Prod.fst

/-! ### What a command answers -/

/-- The command answers a next state with the property. -/
def Answers (i : Instr) (s : State) (p : State → Prop) : Prop := ∃ t, exec i s = .next t ∧ p t

/-- The command answers by offering an ACK of the channel's values, at a state with the property (R63). -/
def Acks (i : Instr) (s : State) (c : Chan) (code : Byte) (result : AckResult) (p : State → Prop) : Prop :=
  ∃ x : State, exec i s = .next (x.ack c code result) ∧ p x

/-- The command answers by offering a REPLY with these fields, at a state with the property (R165). -/
def Replies (i : Instr) (s : State) (tag code : Byte) (result : ReplyResult) (fields : List Byte)
    (p : State → Prop) : Prop :=
  ∃ x : State, exec i s = .next (x.reply tag code result fields) ∧ p x

/-- The refusal of a CONTROL cell changes nothing at its channel but a running abandon timer, started anew (R61,
R81). -/
def OnlyRefused (c : Chan) (s x : State) : Prop :=
  Frame [.handed, .chans] s x ∧ OnlyChannel c s x ∧
    x.chans[c] = { s.chans[c] with
      abandonTimer := if s.chans[c].state = .stopped then some (s.profileOf c).abandonMinutes
        else s.chans[c].abandonTimer }

/-- A channel's WRITING take is closed, its close write outstanding when it holds a block and its closing header has
not failed before; no other take changes (R60, R89, R90). -/
def ClosesTake (c : Chan) (s x : State) : Prop :=
  (∀ u : TakeId, s.writingTake c ≠ some u → x.takes[u] = s.takes[u]) ∧
  ∀ (u : TakeId) (take : Take), s.writingTake c = some u → s.takes[u] = some take → take.refs ≠ 0 →
    x.takes[u] = some { take with state := .closed, closeWrite := take.current.isSome && !s.headerFailed u }

/-- The store write in progress: its first address and its bytes (R118, R134). -/
def State.writing (s : State) : Option (Nat × List Byte) :=
  match s.ctl.st with
  | .busy a _ => s.writeOf a
  | .rebuilding i => s.writeOf (s.rebuildWrite i)
  | _ => none

/-- These bytes stand in the store from address `n` on, and every other byte reads as before. -/
def StoreWrites (s t : State) (n : Nat) (bytes : List Byte) : Prop :=
  (∀ k, ∀ h : k < bytes.length, t.storeByte (n + k) = bytes[k]) ∧
    ∀ a, a < n ∨ n + bytes.length ≤ a → t.storeByte a = s.storeByte a

/-- Every byte of a cut or failed write holds its new or its old value, and every other byte of the store reads as
before (R120, R123). -/
def StoreCut (s t : State) : Prop :=
  ∀ a, t.storeByte a = s.storeByte a ∨
    ∃ n bytes k, s.writing = some (n, bytes) ∧ a = n + k ∧ ∃ h : k < bytes.length, t.storeByte a = bytes[k]

/-- Every byte of the piece being saved holds its new or its old value, and every other byte of the configuration
memory reads as before (R198). -/
def ConfigCut (s t : State) : Prop :=
  ∀ a, t.configByte a = s.configByte a ∨
    ∃ v piece k, s.save = some v ∧ v.pieces.head? = some piece ∧ a = piece.1 + k ∧
      ∃ h : k < piece.2.length, t.configByte a = piece.2[k]

/-- A cell with a valid header is handed over as its command, or discarded with HEADER_ERR for its used count, or with
MISROUTE for its kind and channel (R44, R45). -/
def Delivers (cell : List Byte) (s t : State) : Prop :=
  (∀ i, readCell cell = .routed i → Frame [.port, .handed] s t ∧ t.handed = s.handed ++ [i]) ∧
  (readCell cell = .badUsed → Frame [.port, .dev] s t ∧ t.dev = s.dev.set 0 { latched := true, fresh := true }) ∧
  (readCell cell = .misrouted → Frame [.port, .dev] s t ∧ t.dev = s.dev.set 2 { latched := true, fresh := true })

/-- The controller is IDLE with no request waiting. -/
abbrev State.storeFree (s : State) : Prop := s.ctl.st = .idle ∧ s.ctl.waiting = []

/-! ### What a map plays -/

/-- The take frames an entry names, in order (R108). -/
def Segment.plays (e : Segment) : List (TakeId × Nat) := (List.range e.count).map fun i => (e.take, e.start + i)

/-- The take frames a map names, in playback order (R108). -/
def plays (m : List Segment) : List (TakeId × Nat) := m.flatMap Segment.plays

/-! ### What every step keeps -/

/-- Both memories are in their canonical form. -/
def MemoriesCanonical (s : State) : Prop := Memory.wf s.store ∧ Memory.wf s.cfgMem

/-- The counts the manual bounds: the port's counts (R41, R42), the read attempt (R194), the return queue, which is
empty while nothing is being sent (R47, R49), the frame queue (R54), the assembly buffers and drop counts (R51, R54),
the emitter's cell buffer (R148). -/
def CountsBounded (s : State) : Prop :=
  (∀ n, s.port.sync = .presync n → n = 1 ∨ n = 2) ∧ (∀ n, s.port.sync = .sync n → n < 4) ∧
  (1 ≤ s.startup.attempt ∧ s.startup.attempt ≤ 3) ∧
  s.ret.queue.length ≤ 48 ∧ (s.ret.line = none → s.ret.queue = []) ∧ s.frames.length ≤ 32 ∧
  (∀ c : Chan, s.asm[c].buf.length ≤ 3 ∧ s.asm[c].drops ≤ 255) ∧ s.emitter.buf.length ≤ 64

/-- A channel record as R58's table, R75, R80 and R81 have it in each state. -/
def Channel.disciplined (ch : Channel) : Prop :=
  match ch.state with
  | .unbound => ch.profile = none ∧ ch.slot = none ∧ ch.cursor = 0 ∧ ch.cont = false ∧ ch.pending = .nothing ∧
      ch.idleTimer = none ∧ ch.abandonTimer = none
  | .idle => ch.profile.isSome ∧ ch.slot = none ∧ ch.cursor = 0 ∧ ch.cont = false ∧ ch.pending = .nothing ∧
      ch.idleTimer = none ∧ ch.abandonTimer = none
  | .stopped => ch.profile.isSome ∧ ch.slot.isSome ∧ ch.pending = .nothing ∧ ch.idleTimer = none ∧
      ch.abandonTimer.isSome
  | .recording => ch.profile.isSome ∧ ch.slot.isSome ∧ ch.pending = .nothing ∧ ch.idleTimer.isSome ∧
      ch.abandonTimer = none
  | .stopping => ch.profile.isSome ∧ ch.slot.isSome ∧ ch.pending ≠ .nothing ∧ ch.idleTimer = none ∧
      ch.abandonTimer = none

/-- Every channel record is as its state has it; before CONFIG_LOAD ends every one is as full reset left it (R58,
R38). -/
def ChannelsDisciplined (s : State) : Prop :=
  (∀ c : Chan, s.chans[c].disciplined) ∧
  (s.startup.state = .powerOn ∨ s.startup.state = .configLoad → ∀ c : Chan, s.chans[c] = Channel.reset)

/-- Every profile lies within its ranges (R27); a bound channel's gain lies within its profile's bounds, and is g0 in
FIXED mode (law L8, R22); an UNBOUND channel's context holds the unbound values (R9). -/
def GainsBounded (s : State) : Prop :=
  (∀ p : ProfileId, s.profiles[p].valid = true) ∧
  (∀ (c : Chan) (p : ProfileId), s.chans[c].profile = some p →
    s.profiles[p].gmin ≤ s.ctx[c].g ∧ s.ctx[c].g ≤ s.profiles[p].gmax ∧
      (s.profiles[p].mode = .fixed → s.ctx[c].g = s.profiles[p].g0)) ∧
  (∀ c : Chan, s.chans[c].state = .unbound → s.ctx[c] = CoderCtx.unbound)

/-- The channel conditions and device conditions hold a new mark only while LATCHED, and the error mask's positions
without a condition hold 0 (R184, R189). -/
def ConditionsSound (s : State) : Prop :=
  (∀ i : Fin 13, s.dev[i].fresh = true → s.dev[i].latched = true) ∧
  (∀ c : Chan, (s.chanConds[c].cellLoss.fresh = true → s.chanConds[c].cellLoss.latched = true) ∧
    (s.chanConds[c].clip.fresh = true → s.chanConds[c].clip.latched = true) ∧
    (s.chanConds[c].lowLevel.fresh = true → s.chanConds[c].lowLevel.latched = true)) ∧
  s.errMask.getLsbD 6 = false ∧ s.errMask.getLsbD 7 = false

/-- The emitter's slot is absent in IDLE and ABORT_PENDING, and present in its other states (R138). -/
def Emitter.slotFits (e : Emitter) : Prop :=
  match e.st with
  | .idle => e.slot = none
  | .abortPending => e.slot = none
  | _ => e.slot.isSome

/-- Who holds which letter: a slot is OPEN exactly when a channel holds it, and then it is that channel's (law L11,
R104); a slot is EMITTING exactly when the emitter has it (law L9, R141); a slot is VERIFYING exactly when a verify is
in flight for it, and was QUEUED or FAULTED before (R174). -/
def LettersHeld (s : State) : Prop :=
  (∀ (c : Chan) (k : Slot), s.chans[c].slot = some k →
    ∃ l, s.letters[k] = some l ∧ l.state = .opened ∧ l.chan = c) ∧
  (∀ (k : Slot) (l : Letter), s.letters[k] = some l → l.state = .opened → s.chans[l.chan].slot = some k) ∧
  s.emitter.slotFits ∧
  (∀ k : Slot, s.emitter.slot = some k → ∃ l, s.letters[k] = some l ∧ l.state = .emitting) ∧
  (∀ (k : Slot) (l : Letter), s.letters[k] = some l → l.state = .emitting → s.emitter.slot = some k) ∧
  (∀ v, s.verify = some v → (v.prior = .queued ∨ v.prior = .faulted) ∧
    ∃ l, s.letters[v.slot] = some l ∧ l.state = .verifying) ∧
  (∀ (k : Slot) (l : Letter), s.letters[k] = some l → l.state = .verifying →
    ∃ v, s.verify = some v ∧ v.slot = k)

/-- Laws L1 and L2 (R108): every letter's content and instruction frames are the sums of its entries' counts, and
together at most 262,143; its map holds at most 40 entries, and an entry without frames is the open segment of a
channel in RECORDING or STOPPING. A frame in the take writer's hand has room in its letter (R97). -/
def LetterSums (s : State) : Prop :=
  (∀ (k : Slot) (l : Letter), s.letters[k] = some l →
    l.contentFrames = kindFrames .content l.map ∧ l.instrFrames = kindFrames .instruction l.map ∧
    l.contentFrames + l.instrFrames ≤ 262143 ∧ l.map.length ≤ 40 ∧
    ∀ e ∈ l.map, 1 ≤ e.count ∨
      (l.state = .opened ∧ s.writes l.chan e.take = true ∧
        (s.chans[l.chan].state = .recording ∨ s.chans[l.chan].state = .stopping))) ∧
  ∀ j : Job, s.writer.hand = some (.job j) → s.writes j.chan j.take = true → s.commitRoom j.chan ≠ 0

/-- The entries of all maps, slot by slot (R103, R108). -/
def State.entries (s : State) : List Segment := (List.finRange 48).flatMap fun k => s.slotMap k

/-- The number of map entries, in all slots, that name a take (R88). -/
def State.entriesNaming (s : State) (t : TakeId) : Nat := s.entries.countP fun e => e.take = t

/-- The take whose walk step is in the take writer's hand (R92, R100). -/
def Writer.walking (w : Writer) : Option TakeId :=
  match w.hand with
  | some (.walk t _) => some t
  | some (.job j) => match j.phase with
    | .walk t _ => some t
    | _ => none
  | _ => none

/-- Law L3: a take's reference count is the number of map entries that name it, and every entry lies in the map of its
take's owning slot (R88). The walk list holds, each once, exactly the CLOSED takes of count 0 that wait for no close
write and are not stranded, and a walk step is made for a take on it (R91 to R93). -/
def ReferencesCounted (s : State) : Prop :=
  (∀ (t : TakeId) (take : Take), s.takes[t] = some take → take.refs = s.entriesNaming t) ∧
  (∀ (k : Slot) (e : Segment), e ∈ s.slotMap k → ∃ take, s.takes[e.take] = some take ∧ take.owner = k) ∧
  s.writer.walkList.Nodup ∧
  (∀ t ∈ s.writer.walkList, ∃ take, s.takes[t] = some take ∧ take.first.isSome) ∧
  (∀ (t : TakeId) (take : Take), s.takes[t] = some take →
    (t ∈ s.writer.walkList ↔
      take.state = .closed ∧ take.refs = 0 ∧ take.closeWrite = false ∧ take.stranded = false)) ∧
  ∀ t : TakeId, s.writer.walking = some t → t ∈ s.writer.walkList

/-- Law L10: a WRITING take is named by exactly one map entry, in the OPEN letter of its owning slot, and a channel has
at most one (R94). A channel in RECORDING or STOPPING has one (R53); in STOPPED it has one exactly while continuation
is set (R60, R89). -/
def WritingTakesNamed (s : State) : Prop :=
  (∀ (t : TakeId) (take : Take), s.takes[t] = some take → take.state = .writing →
    s.entriesNaming t = 1 ∧
    ∃ l, s.letters[take.owner] = some l ∧ l.state = .opened ∧ ∃ e ∈ l.map, e.take = t) ∧
  (∀ (c : Chan) (t u : TakeId), s.writes c t = true → s.writes c u = true → t = u) ∧
  ∀ c : Chan,
    (s.chans[c].state = .recording ∨ s.chans[c].state = .stopping → ∃ t, s.writes c t = true) ∧
    (s.chans[c].state = .stopped → (s.chans[c].cont = true ↔ ∃ t, s.writes c t = true))

/-- Law L4: no frame of any take is named by two map entries; and every entry names frames that its take holds
(R108). -/
def FramesApart (s : State) : Prop :=
  (s.entries.flatMap Segment.plays).Nodup ∧
  ∀ e ∈ s.entries, ∃ take, s.takes[e.take] = some take ∧ e.start + e.count ≤ take.frames

/-- Law L6: a channel's cursor lies between 0 and its open letter's length (R59); while a take is being written it
stands at the end of the open segment, whose start frame is 0 (R108 to R110). -/
def CursorsHeld (s : State) : Prop :=
  ∀ (c : Chan) (k : Slot) (l : Letter), s.holdsOpen c k l →
    s.chans[c].cursor ≤ l.length ∧
    ∀ t : TakeId, s.writes c t = true → ∃ before e after,
      l.map = before ++ e :: after ∧ e.take = t ∧ e.start = 0 ∧
      s.chans[c].cursor = ((before ++ [e]).map Segment.count).sum

/-- The laws of letters, takes and channels together (L1 to L4, L6, L9 to L11), each of which every step keeps while
all of them hold. -/
structure LawsHold (s : State) : Prop where
  channels : ChannelsDisciplined s
  held : LettersHeld s
  sums : LetterSums s
  references : ReferencesCounted s
  writing : WritingTakesNamed s
  apart : FramesApart s
  cursors : CursorsHeld s

/-! ### Where the blocks are (law L5) -/

/-- The take writer's accesses: the one in progress, its outcome not discarded, and those waiting (R118, R122). -/
def State.writerAccesses (s : State) : List Access :=
  ((match s.ctl.st with
    | .busy a false => [a]
    | _ => []) ++ s.ctl.waiting).filter Access.ofTakeWriter

/-- A walk step of take `t` waits for the header read of its first block, or for the return of that block: the last
one alone is returned without a next block (R92). -/
def State.walkWaits (s : State) (t : TakeId) (phase : WalkPhase) : Prop :=
  ∃ take b, s.takes[t] = some take ∧ take.first = some b ∧
    match phase with
    | .header _ => 1 < take.blocks ∧ s.writerAccesses = [.headerRead b]
    | .giveBack next => (next = none ↔ take.blocks = 1) ∧ s.writerAccesses = [.ringWrite s.ctl.tail b]

/-- The access a frame's write makes: the count of the last gap, or a record behind the others of the current block
(R97, R98). -/
def Take.frameAccess (take : Take) (b : BlockNo) (x : Content) : Access :=
  match x.extends take with
  | some g => .gapCountWrite b g.offset (g.count + 1)
  | none => .recordWrite b take.view.length x.record

/-- What an item in the take writer's hand waits for (R97, R98, R100, R101). -/
def State.jobWaits (s : State) (j : Job) : Prop :=
  match j.phase with
  | .write _ => ∃ take b, s.takes[j.take] = some take ∧ take.current = some b ∧
      s.writerAccesses = [take.frameAccess b j.content] ∧
      (j.content.extends take = none → j.content.record.length ≤ 500 - take.view.length)
  | .allocate => s.ctl.free ≠ 0 ∧ s.writerAccesses = [.ringRead s.ctl.head]
  | .closeOld new _ => ∃ take old, s.takes[j.take] = some take ∧ take.current = some old ∧
      s.writerAccesses = [.headerWrite old (take.header j.take new)]
  | .handBack => ∃ b, s.writerAccesses = [.ringWrite s.ctl.tail b]
  | .walk t phase => s.walkWaits t phase

/-- The take writer waits for exactly the one access of what it has in hand, and for none when it is READY (R95,
R122). -/
def State.handWaits (s : State) : Prop :=
  match s.writer.hand with
  | none => s.writerAccesses = []
  | some (.close t _) => ∃ take b, s.takes[t] = some take ∧ take.current = some b ∧
      s.writerAccesses = [.headerWrite b (take.header t 0)]
  | some (.walk t phase) => s.walkWaits t phase
  | some (.job j) => s.jobWaits j

/-- The ring and the takes are in use: the controller is IDLE, or BUSY with an access whose outcome counts (R123). -/
def StoreCtl.inUse (k : StoreCtl) : Prop := k.st = .idle ∨ ∃ a, k.st = .busy a false

/-- The take writer and the store controller are in step: the writer waits for the access of what it has in hand, a
take's first and current block are both present or both absent, with its count of blocks (R86); while the ring is not
in use no take is held and no block is free, and the controller is unset until CONFIG_LOAD ends (06 opening, R115,
R134, R135). -/
def WriterInStep (s : State) : Prop :=
  s.handWaits ∧
  (∀ (t : TakeId) (take : Take), s.takes[t] = some take →
    take.first.isSome = take.current.isSome ∧ (take.first.isSome ↔ 0 < take.blocks) ∧
    ∀ g, take.lastGap = some g → g.offset + 3 ≤ 500) ∧
  (s.ctl.inUse ∨ ((∀ t : TakeId, s.takes[t] = none) ∧ s.writer.hand = none ∧ s.ctl.free = 0)) ∧
  (s.startup.state = .powerOn ∨ s.startup.state = .configLoad → s.ctl.st = .unset)

/-- The blocks that an allocation has handed over and that are neither linked nor back in the ring (06, "The free
ring"). -/
def State.looseBlocks (s : State) : List BlockNo :=
  match s.writer.hand with
  | some (.job j) => match j.phase with
    | .closeOld b _ => [b]
    | .handBack => s.writerAccesses.filterMap fun
      | .ringWrite _ b => some b
      | _ => none
    | _ => []
  | _ => []

/-- The blocks of a take. -/
def State.blocksOf (s : State) (t : TakeId) : Nat := s.takes[t].elim 0 Take.blocks

/-- Law L5, counted: while the ring is in use, the free count and the blocks chained to takes, one that is handed over
included, make up the usable count U (R132, R133). -/
def BlocksCounted (s : State) : Prop :=
  s.ctl.inUse →
    s.ctl.free + ((List.finRange 128).map s.blocksOf).sum + s.looseBlocks.length = s.ctl.settings.usable

/-- The block numbers in the free ring, from the head on (R129, R130). -/
def State.ringBlocks (s : State) : List BlockNo :=
  (List.range s.ctl.free).map fun i => s.ringSlot ((s.ctl.head + i) % s.ctl.settings.blocks)

/-- So many blocks of a chain, from a block on, each header naming the next (R124). -/
def State.chainFrom (s : State) : Nat → BlockNo → List BlockNo
  | 0, _ => []
  | n + 1, b => b :: s.chainFrom n (s.headerIn b).next

/-- The blocks chained to a take, from its first on. -/
def State.chainOf (s : State) (t : TakeId) : List BlockNo :=
  (s.takes[t].bind fun take => take.first.map (s.chainFrom take.blocks)).getD []

/-- The usable block numbers (R116). -/
def StoreSettings.usableBlocks (w : StoreSettings) : List BlockNo :=
  (List.range w.usable).map fun i => BitVec.ofNat 16 (w.ringBlocks + i)

/-- Law L5, block by block: while the ring is in use, its tail stands the free count of slots behind its head (R129), and
the free ring, the chains of the takes and a block handed over hold every usable block exactly once between them; a take's current block is the last of its chain, and a walk step
goes on at the second. During a rebuild the slots already written hold what R134 says. -/
def BlocksInPlace (s : State) : Prop :=
  (s.ctl.inUse →
    s.ctl.head < s.ctl.settings.blocks ∧ s.ctl.tail = (s.ctl.head + s.ctl.free) % s.ctl.settings.blocks ∧
    (s.ringBlocks ++ (List.finRange 128).flatMap s.chainOf ++ s.looseBlocks).Perm s.ctl.settings.usableBlocks ∧
    (∀ (t : TakeId) (take : Take), s.takes[t] = some take → (s.chainOf t).getLast? = take.current) ∧
    ∀ (t : TakeId) (b n : BlockNo), s.writer.walking = some t → s.takes[t].bind Take.first = some b →
      (s.writer.hand = some (.walk t (.giveBack (some n))) ∨
        ∃ j, s.writer.hand = some (.job j) ∧ j.phase = .walk t (.giveBack (some n))) →
      n = (s.headerIn b).next) ∧
  ∀ i, s.ctl.st = .rebuilding i → ∀ j < i,
    s.ringSlot j = BitVec.ofNat 16 (s.ctl.settings.ringBlocks + j)

/-- The store bytes that a command reports as changed by causes outside the part (log 6). -/
def storeChanges : Instr → List Host.Cell
  | .walkHeaderReadDone changed => changed
  | .ringReadDone changed => changed
  | .emitterBlockReadDone changed => changed
  | .verifyBlockReadDone changed => changed
  | .peekReadDone changed => changed
  | _ => []

/-- Letter numbers of slots other than FREE are distinct, and they and the counter lie in 1–65535 (law L12, R107). -/
def NumbersDistinct (s : State) : Prop :=
  (1 ≤ s.letterNo ∧ s.letterNo ≤ 65535) ∧
  (∀ (k : Slot) (l : Letter), s.letters[k] = some l → 1 ≤ l.number ∧ l.number ≤ 65535) ∧
  (∀ (j k : Slot) (l m : Letter), s.letters[j] = some l → s.letters[k] = some m → l.number = m.number → j = k)

end Sys2Proof.Machine
end

