-- ==== Sys2Proof/WellFormed.lean ====
section
/-!
DEFINITION. Which commands can be sent: the checks on operands that the types alone do not make.
-/

namespace Sys2Proof

/-- A used count lies in 0–64; an intact payload needs all 64 bytes (R44, R163). -/
def Mgmt.wellFormed (m : Mgmt) : Bool :=
  m.used.toNat ≤ 64 && (!m.intact || m.used.toNat == 64)

/-- Bytes changed from outside lie in the memory concerned (R116, R117, R192). -/
def changedBelow (top : Nat) (changed : List Host.Cell) : Bool :=
  changed.all fun cell => cell.1 < top

/-- The operand checks of every command. A MGMT_UNKNOWN's code names no command (R164, R203). A CONTROL cell with
the code of RECORD, STOP, DISCARD or POSITION carries that command, whatever follows, since none takes an argument
(R62), so no CONTROL_UNKNOWN has one of those codes. -/
def Instr.wellFormed : Instr → Bool
  | .configReadAttemptEnd _ changed => changedBelow Config.configTop changed
  | .walkHeaderReadDone changed => changedBelow Config.storeTop changed
  | .ringReadDone changed => changedBelow Config.storeTop changed
  | .emitterBlockReadDone changed => changedBelow Config.storeTop changed
  | .verifyBlockReadDone changed => changedBelow Config.storeTop changed
  | .peekReadDone changed => changedBelow Config.storeTop changed
  | .mgmtUnknown m code => m.wellFormed && (code == 0 || 0x13 < code.toNat)
  | .ident m => m.wellFormed
  | .profileWrite m _ _ => m.wellFormed
  | .profileRead m _ => m.wellFormed
  | .channelBind m _ _ => m.wellFormed
  | .channelRead m _ => m.wellFormed
  | .channelClear m _ => m.wellFormed
  | .letterList m _ => m.wellFormed
  | .letterRead m _ => m.wellFormed
  | .mapRead m _ _ => m.wellFormed
  | .letterVerify m _ _ => m.wellFormed
  | .emitAgain m _ _ => m.wellFormed
  | .drop m _ _ => m.wellFormed
  | .blockPeek m _ _ => m.wellFormed
  | .storeRead m => m.wellFormed
  | .statusRead m => m.wellFormed
  | .statusClear m _ _ _ => m.wellFormed
  | .maskWrite m _ _ => m.wellFormed
  | .configSave m => m.wellFormed
  | .restart m => m.wellFormed
  | .fullReset _ _ => true
  | .busReleaseEnd => true
  | .huntByteTest _ _ _ _ => true
  | .presyncHeader _ => true
  | .intakeCell _ => true
  | .audio _ _ _ => true
  | .record _ => true
  | .stop _ => true
  | .seek _ _ _ => true
  | .editmode _ _ => true
  | .instruct _ _ => true
  | .erase _ _ => true
  | .submit _ _ => true
  | .discard _ => true
  | .position _ => true
  | .controlUnknown _ code => !(code == 1 || code == 2 || code == 8 || code == 9)
  | .idleStopExpiry _ => true
  | .abandonExpiry _ => true
  | .stretchEnd _ => true
  | .storeFullStop _ => true
  | .longStop _ => true
  | .writeFault _ => true
  | .coderTakeFrame => true
  | .coderArithmeticDone => true
  | .takeWriterTakeWork => true
  | .recordWriteDone => true
  | .headerWriteDone => true
  | .ringWriteDone => true
  | .rebuildWriteDone => true
  | .readyTimeout _ => true
  | .holdAssert => true
  | .holdNegate => true
  | .poolCellEnd => true
  | .returnCellEnd => true
  | .configPieceTransferEnd _ _ => true
  | .configWriteAck => true
  | .configWriteTimeout _ => true

end Sys2Proof
end

