-- ==== Sys2Proof/Certificates/Slice0/Obligations.lean ====
section
/-!
DEFINITION. The statements for the provers, in the order of OBLIGATIONS.json.
-/

section

open Sys2Proof Sys2Proof.Machine

/-! ### The step -/

/-- A step carries out the command at the front of the queue on the part with the queue's rest; on an empty queue the
part idles (the model's choice, log 2). -/
def Obligations.StepTakesFrontCommand : Prop :=
  (∀ (i : Instr) (rest : List Instr) (s : State), s.pending = i :: rest →
    step s = exec i { s with pending := rest }) ∧
  ∀ s : State, s.pending = [] → step s = .next s

/-! ### Resets and start-up -/

/-- What the "State after each reset" tables, R6, R9, R27, R58, R86, R103, R107, R138, R189 and R193 give for full
reset, and that the invariants stated below hold then. -/
def Obligations.AfterReset : Prop :=
  State.reset.startup.state = .powerOn ∧ State.reset.port.sync = .hunt ∧
  State.reset.ret.queue = [] ∧ State.reset.ret.line = none ∧ (∀ n : Fin 25, State.reset.ret.seqs[n] = 0) ∧
  (∀ c : Chan, State.reset.asm[c].buf = [] ∧ State.reset.asm[c].expected = none ∧ State.reset.asm[c].drops = 0) ∧
  State.reset.frames = [] ∧ State.reset.coder = .idle ∧
  (∀ c : Chan, State.reset.ctx[c] = { g := 256, p := 0, q := 255, low := 0 }) ∧
  (∀ p : ProfileId, State.reset.profiles[p] =
    { width := 4, thr := 96, hang := 12, mode := .regulated, g0 := 256, target := 2048, gmin := 64, gmax := 1023,
      prio := 2, idle := 0, abandon := 0 }) ∧
  (∀ c : Chan, State.reset.chans[c] =
    { state := .unbound, profile := none, slot := none, cursor := 0, mode := .insert, instruct := false,
      cont := false, pending := .nothing, idleTimer := none, abandonTimer := none }) ∧
  (∀ k : Slot, State.reset.letters[k] = none ∧ State.reset.steps[k] = 0) ∧ State.reset.letterNo = 1 ∧
  (∀ t : TakeId, State.reset.takes[t] = none) ∧
  State.reset.writer.hand = none ∧ State.reset.writer.closeQueue = [] ∧ State.reset.writer.gapTurns = [] ∧
  State.reset.writer.walkList = [] ∧ (∀ c : Chan, State.reset.stretch[c] = none) ∧
  State.reset.ctl.head = 0 ∧ State.reset.ctl.tail = 0 ∧ State.reset.ctl.free = 0 ∧ State.reset.usableCount = 0 ∧
  State.reset.emitter.st = .idle ∧ State.reset.emitter.slot = none ∧ State.reset.emitter.poolSeq = 0 ∧
  State.reset.emitter.abort = none ∧ State.reset.emitter.stamp = 0 ∧ State.reset.pool = none ∧
  (∀ d : DevCond, State.reset.latched d = false) ∧
  (∀ c : Chan, State.reset.chanConds[c].any = false) ∧
  State.reset.errMask = 0x3F ∧ State.reset.warnMask = 0xFF ∧
  State.reset.verify = none ∧ State.reset.peek = none ∧ State.reset.save = none ∧ State.reset.restart = none ∧
  MemoriesCanonical State.reset ∧ CountsBounded State.reset ∧ ChannelsDisciplined State.reset ∧
  GainsBounded State.reset ∧ ConditionsSound State.reset ∧ NumbersDistinct State.reset ∧ LawsHold State.reset ∧
  WriterInStep State.reset ∧ BlocksCounted State.reset ∧ BlocksInPlace State.reset

/-- FULL_RESET takes the part to its reset values. Outside it stay the queue (log 20), the level of *HOLD* (log 10),
and the two memories. R123 and R198 say that a write the reset cuts may leave part of its bytes; that it leaves each of
them old or new is the model's choice (log 7). -/
def Obligations.FullResetLeaves : Prop :=
  ∀ (placed saved : List Bool) (s : State), Answers (.fullReset placed saved) s fun t =>
    Frame [.pending, .hold, .store, .cfgMem] State.reset t ∧ t.pending = s.pending ∧ t.hold = s.hold ∧
    StoreCut s t ∧ ConfigCut s t

/-- BUS_RELEASE_END begins CONFIG_LOAD with area A. An attempt that delivers an area with a good check and valid contents
settles it on them, a third failed attempt or invalid contents settle it on the defaults with CONFIG_A_DEFAULT or
CONFIG_B_DEFAULT latched, and an earlier failed attempt is followed by another. Area A gives the masks and the store
settings to come. When area B is settled, CONFIG_LOAD ends: profiles, bindings and gains are set, the store takes area
A's settings and its rebuild begins (R10, R38, R193 to R195). -/
def Obligations.StartupReadsAreas : Prop :=
  (∀ s : State, s.startup.state = .powerOn → Answers .busReleaseEnd s fun t =>
    Frame [.startup] s t ∧
      t.startup = { s.startup with state := .configLoad, area := .a, attempt := 1 }) ∧
  (∀ (acked : Bool) (changed : List Host.Cell) (s : State),
    s.startup.state = .configLoad → s.startup.area = .a →
    (∀ data a, acked = true → (s.changeConfig changed).readArea .a = some data → AreaA.read data = some a →
      Answers (.configReadAttemptEnd acked changed) s fun t =>
        Frame [.startup, .errMask, .warnMask] (s.changeConfig changed) t ∧
        t.startup = { s.startup with area := .b, attempt := 1, held := a.settings } ∧
        t.errMask = a.error &&& 0x3F ∧ t.warnMask = a.warning) ∧
    ((∃ data, acked = true ∧ (s.changeConfig changed).readArea .a = some data ∧ AreaA.read data = none) ∨
      ((acked = false ∨ (s.changeConfig changed).readArea .a = none) ∧ s.startup.attempt = 3) →
      Answers (.configReadAttemptEnd acked changed) s fun t =>
        Frame [.startup, .errMask, .warnMask, .dev] (s.changeConfig changed) t ∧
        t.startup = { s.startup with
          area := .b, attempt := 1, held := { window := 0, wait := .oneWait, mark := 512 } } ∧
        t.errMask = 0x3F ∧ t.warnMask = 0xFF ∧ t.latched .configADefault = true) ∧
    ((acked = false ∨ (s.changeConfig changed).readArea .a = none) ∧ s.startup.attempt < 3 →
      Answers (.configReadAttemptEnd acked changed) s fun t =>
        Frame [.startup] (s.changeConfig changed) t ∧
        t.startup = { s.startup with attempt := s.startup.attempt + 1 })) ∧
  ∀ (acked : Bool) (changed : List Host.Cell) (s : State),
    s.startup.state = .configLoad → s.startup.area = .b →
    (∀ data b, acked = true → (s.changeConfig changed).readArea .b = some data → AreaB.read data = some b →
      Answers (.configReadAttemptEnd acked changed) s fun t =>
        Frame [.startup, .profiles, .chans, .ctx, .ctl] (s.changeConfig changed) t ∧
        t.startup = { s.startup with state := .storeInit } ∧
        t.ctl = { s.ctl with st := .rebuilding 0, settings := s.startup.held } ∧
        t.profiles = b.profiles ∧
        ∀ c : Chan,
          (∀ p, b.bindings[c] = some p →
            t.chans[c] = { s.chans[c] with state := .idle, profile := some p } ∧
            t.ctx[c] = { s.ctx[c] with g := b.profiles[p].g0 }) ∧
          (b.bindings[c] = none → t.chans[c] = s.chans[c] ∧ t.ctx[c] = s.ctx[c])) ∧
    ((∃ data, acked = true ∧ (s.changeConfig changed).readArea .b = some data ∧ AreaB.read data = none) ∨
      ((acked = false ∨ (s.changeConfig changed).readArea .b = none) ∧ s.startup.attempt = 3) →
      Answers (.configReadAttemptEnd acked changed) s fun t =>
        Frame [.startup, .profiles, .chans, .ctx, .ctl, .dev] (s.changeConfig changed) t ∧
        t.startup = { s.startup with state := .storeInit } ∧
        t.ctl = { s.ctl with st := .rebuilding 0, settings := s.startup.held } ∧
        (∀ p : ProfileId, t.profiles[p] = Profile.default) ∧
        (∀ c : Chan, t.chans[c] = { s.chans[c] with state := .idle, profile := some 0 } ∧
          t.ctx[c] = { s.ctx[c] with g := 256 }) ∧
        t.latched .configBDefault = true) ∧
    ((acked = false ∨ (s.changeConfig changed).readArea .b = none) ∧ s.startup.attempt < 3 →
      Answers (.configReadAttemptEnd acked changed) s fun t =>
        Frame [.startup] (s.changeConfig changed) t ∧
        t.startup = { s.startup with attempt := s.startup.attempt + 1 })

/-! ### The intake link and the frame assembler -/

/-- In HUNT and PRESYNC a header with a good check confirms the candidate alignment, a bad one sends the port back to
hunting one byte on, without a condition; the third good header's cell is delivered. In SYNC a cell with a good header
is handed over, or discarded with HEADER_ERR for its used count or MISROUTE for its kind and channel; a bad header
latches HEADER_ERR, and the fourth in a row SYNC_LOST as well (R40 to R42, R44, R45; the position in the stream is the
model's, log 25, and so is the list of cells handed over, which `Delivers` names, log 3). -/
def Obligations.IntakePortAligns : Prop :=
  (∀ (b0 b1 b2 b3 : Byte) (s : State), s.port.sync = .hunt → Answers (.huntByteTest b0 b1 b2 b3) s fun t =>
    Frame [.port] s t ∧
    (crc8 [b0, b1, b2] = b3 → t.port = { sync := .presync 1, nextHeader := s.port.nextHeader + 68 }) ∧
    (crc8 [b0, b1, b2] ≠ b3 → t.port = { sync := .hunt, nextHeader := s.port.nextHeader + 1 })) ∧
  (∀ (cell : Vector Byte 68) (s : State),
    (s.port.sync = .presync 1 ∨ s.port.sync = .presync 2 → headerGood cell.toList = false →
      Answers (.presyncHeader cell) s fun t =>
        Frame [.port] s t ∧ t.port = { sync := .hunt, nextHeader := s.port.nextHeader + 1 }) ∧
    (s.port.sync = .presync 1 → headerGood cell.toList = true → Answers (.presyncHeader cell) s fun t =>
      Frame [.port] s t ∧ t.port = { sync := .presync 2, nextHeader := s.port.nextHeader + 68 }) ∧
    (s.port.sync = .presync 2 → headerGood cell.toList = true → Answers (.presyncHeader cell) s fun t =>
      t.port = { sync := .sync 0, nextHeader := s.port.nextHeader + 68 } ∧ Delivers cell.toList s t)) ∧
  ∀ (cell : Vector Byte 68) (s : State) (bad : Nat), s.port.sync = .sync bad →
    (readCell cell.toList ≠ .badHeader → Answers (.intakeCell cell) s fun t =>
      t.port = { sync := .sync 0, nextHeader := s.port.nextHeader + 68 } ∧ Delivers cell.toList s t) ∧
    (readCell cell.toList = .badHeader → Answers (.intakeCell cell) s fun t =>
      Frame [.port, .dev] s t ∧ t.latched .headerErr = true ∧
      (bad < 3 → t.port = { sync := .sync (bad + 1), nextHeader := s.port.nextHeader + 68 } ∧
        t.dev = s.dev.set 0 { latched := true, fresh := true }) ∧
      (3 ≤ bad → t.port = { sync := .hunt, nextHeader := s.port.nextHeader + 1 } ∧ t.latched .syncLost = true))

/-- The 68 bytes of the cell of a well-formed command are read back as that command (R44, R45, R62, R201 to R203). -/
def Obligations.CellsReadBack : Prop :=
  ∀ (i : Instr) (cell : List Byte), i.wellFormed = true → encodeCell i = some cell →
    cell.length = 68 ∧ readCell cell = .routed i

/-- An offered cell takes its channel's sequence number, which advances by 1 modulo 16 whether the cell is queued or
dropped; it is queued, or begins sending at once when nothing is being sent, or is dropped at 48 waiting cells with
RETURN_OVERFLOW latched (R47 to R49). The end of the cell being sent begins the head of the queue, with E and W as they
stand then. -/
def Obligations.ReturnPathSendsInOrder : Prop :=
  (∀ (s : State) (n : Fin 25) (kind used : Nat) (payload : List Byte),
    (s.offer n kind used payload).ret.seqs = s.ret.seqs.set n (s.ret.seqs[n] + 1) ∧
    (s.ret.queue.length = 48 →
      Frame [.ret, .dev] s (s.offer n kind used payload) ∧
      (s.offer n kind used payload).ret.queue = s.ret.queue ∧ (s.offer n kind used payload).ret.line = s.ret.line ∧
      (s.offer n kind used payload).latched .returnOverflow = true) ∧
    (s.ret.queue.length < 48 → Frame [.ret] s (s.offer n kind used payload) ∧
      (s.ret.line.isSome → (s.offer n kind used payload).ret.line = s.ret.line ∧
        (s.offer n kind used payload).ret.queue = s.ret.queue ++
          [{ channel := n.val, kind := kind, sequence := s.ret.seqs[n], used := used, payload := payload }]) ∧
      (s.ret.line = none → s.ret.queue = [] → (s.offer n kind used payload).ret.queue = [] ∧
        (s.offer n kind used payload).ret.line = some (cellBytes n.val kind s.ret.seqs[n]
          (BitVec.ofNat 4 (2 * s.errorFlag.toNat + s.warningFlag.toNat)) used payload)))) ∧
  ∀ s : State, s.ret.line.isSome → Answers .returnCellEnd s fun t =>
    Frame [.ret] s t ∧ t.ret.seqs = s.ret.seqs ∧
    (s.ret.queue = [] → t.ret.queue = [] ∧ t.ret.line = none) ∧
    ∀ cell rest, s.ret.queue = cell :: rest → t.ret.queue = rest ∧
      t.ret.line = some (cellBytes cell.channel cell.kind cell.sequence
        (BitVec.ofNat 4 (2 * s.errorFlag.toNat + s.warningFlag.toNat)) cell.used cell.payload)

/-- An AUDIO cell outside RECORDING: nothing during start-up, MISROUTE for an UNBOUND channel, and otherwise only the
expected sequence moves. In RECORDING a cell that shows no cell lost restarts the idle-stop timer and is placed in the
buffer, behind head padding when it is the first of the stretch; at position 3 it completes a frame, which is queued
with the channel's drop count, or dropped at 32 entries with INTAKE_OVERFLOW latched (R46, R50 to R54, R80). -/
def Obligations.AudioIsAssembled : Prop :=
  (∀ (c : Chan) (seq : BitVec 4) (samples : Vector Sample 32) (s : State),
    (s.startup.state ≠ .ready → Answers (.audio c seq samples) s fun t => Frame [.handed] s t) ∧
    (s.startup.state = .ready → s.chans[c].state = .unbound → Answers (.audio c seq samples) s fun t =>
      Frame [.handed, .dev] s t ∧ t.dev = s.dev.set 2 { latched := true, fresh := true }) ∧
    (s.startup.state = .ready → s.chans[c].state ≠ .unbound → s.chans[c].state ≠ .recording →
      Answers (.audio c seq samples) s fun t =>
        Frame [.handed, .asm] s t ∧ OnlyChannel c s t ∧
        t.asm[c] = { s.asm[c] with expected := some (seq + 1) })) ∧
  ∀ (c : Chan) (seq : BitVec 4) (samples : Vector Sample 32) (s : State) (t : TakeId) (before : List Piece),
    s.startup.state = .ready → s.chans[c].state = .recording → s.writingTake c = some t →
    s.asm[c].expected = none ∨ s.asm[c].expected = some seq →
    before = (if s.asm[c].fresh then List.replicate (seq.toNat % 4) Piece.pad else s.asm[c].buf) →
    before.length ≤ 3 →
    Answers (.audio c seq samples) s fun x =>
      OnlyChannel c s x ∧
      x.chans[c] = { s.chans[c] with idleTimer := some (s.profileOf c).idleSeconds } ∧
      (before.length < 3 → Frame [.handed, .chans, .asm] s x ∧
        x.asm[c] = { s.asm[c] with
          expected := some (seq + 1), fresh := false, buf := before ++ [.received samples] }) ∧
      (before.length = 3 → s.frames.length < 32 → Frame [.handed, .chans, .asm, .frames] s x ∧
        x.asm[c] = { s.asm[c] with expected := some (seq + 1), fresh := false, buf := [], drops := 0 } ∧
        x.frames = s.frames ++
          [{ chan := c, take := t, samples := (before.flatMap Piece.samples) ++ samples.toList,
             patched := decide (Piece.filler ∈ before), allFiller := false, drops := s.asm[c].drops }]) ∧
      (before.length = 3 → s.frames.length = 32 → Frame [.handed, .chans, .asm, .dev] s x ∧
        x.asm[c] = { s.asm[c] with
          expected := some (seq + 1), fresh := false, buf := [], drops := min 255 (s.asm[c].drops + 1) } ∧
        x.latched .intakeOverflow = true)

/-- An AUDIO cell in RECORDING that shows cells lost latches CELL_LOSS and places that many fillers before itself. The
buffer holds what is left of the positions filled; every four positions have completed a frame, of which the frame
queue takes as many as it has room for, the first with the channel's drop count. The others are dropped and counted,
with INTAKE_OVERFLOW latched (R50, R52 to R54). -/
def Obligations.LostCellsAreFilled : Prop :=
  ∀ (c : Chan) (seq e : BitVec 4) (samples : Vector Sample 32) (s : State) (t : TakeId) (start n room : Nat),
    s.startup.state = .ready → s.chans[c].state = .recording → s.writingTake c = some t →
    s.asm[c].expected = some e → e ≠ seq →
    start = (if s.asm[c].fresh then e.toNat % 4 else s.asm[c].buf.length) → start ≤ 3 →
    n = (start + (seq - e).toNat + 1) / 4 → s.frames.length + room = 32 →
    Answers (.audio c seq samples) s fun x =>
      OnlyChannel c s x ∧ Frame [.handed, .chans, .asm, .frames, .chanConds, .dev] s x ∧
      x.chans[c] = { s.chans[c] with idleTimer := some (s.profileOf c).idleSeconds } ∧
      x.chanConds[c] = { s.chanConds[c] with cellLoss := { latched := true, fresh := true } } ∧
      x.asm[c].expected = some (seq + 1) ∧ x.asm[c].fresh = false ∧
      x.asm[c].buf.length = (start + (seq - e).toNat + 1) % 4 ∧
      x.asm[c].drops = (if n = 0 then s.asm[c].drops else if n ≤ room then 0
        else min 255 ((if room = 0 then s.asm[c].drops else 0) + (n - room))) ∧
      x.dev = (if n ≤ room then s.dev else s.dev.set 3 { latched := true, fresh := true }) ∧
      ∃ more : List FrameEntry, x.frames = s.frames ++ more ∧ more.length = min n room ∧
        (∀ f ∈ more, f.chan = c ∧ f.take = t ∧ f.samples.length = 128 ∧ f.patched = true) ∧
        ∀ i f, more[i]? = some f → f.drops = if i = 0 then s.asm[c].drops else 0

/-! ### Recorder channels -/

/-- The tests of R61 before a command's own: during start-up and restarts NOT_READY, then UNBOUND, UNKNOWN, BUSY in
STOPPING, STATE; a refusal changes nothing at the channel but a running abandon timer, started anew (R61, R62, R81). -/
def Obligations.ControlCellsAreTested : Prop :=
  (∀ (i : Instr) (c : Chan) (code : Byte) (accepts : List ChanState) (s : State),
    controlRow i = some (c, code, accepts) →
    (s.startup.state ≠ .ready ∨ s.restart.isSome → Acks i s c code .notReady (OnlyRefused c s)) ∧
    (s.serves c .unbound → Acks i s c code .unbound (OnlyRefused c s)) ∧
    (s.serves c .stopping → ChanState.stopping ∉ accepts → Acks i s c code .busy (OnlyRefused c s)) ∧
    (∀ state, s.serves c state → state ≠ .unbound → state ≠ .stopping → state ∉ accepts →
      Acks i s c code .state (OnlyRefused c s))) ∧
  ∀ (c : Chan) (code : Byte) (s : State),
    (s.startup.state ≠ .ready ∨ s.restart.isSome →
      Acks (.controlUnknown c code) s c code .notReady (OnlyRefused c s)) ∧
    (s.serves c .unbound → Acks (.controlUnknown c code) s c code .unbound (OnlyRefused c s)) ∧
    ∀ state, s.serves c state → state ≠ .unbound →
      Acks (.controlUnknown c code) s c code .unknown (OnlyRefused c s)

/-- RECORD in IDLE opens a letter in the lowest FREE slot on the lowest eligible take, sets the coder context, and the
channel is RECORDING at an empty open segment (R8, R9, R64, R65, R87, R105, R109). -/
def Obligations.RecordOpensLetter : Prop :=
  ∀ (c : Chan) (s : State) (k : Slot) (t : TakeId) (p : ProfileId),
    s.serves c .idle → s.chans[c].slot = none → s.chans[c].profile = some p →
    s.letters[k] = none → (∀ j : Slot, j < k → s.letters[j].isSome) →
    s.eligible t = true → (∀ u : TakeId, u < t → s.eligible u = false) → s.ctl.free ≠ 0 →
    Acks (.record c) s c 1 .done fun x =>
      Frame [.handed, .letters, .letterNo, .takes, .chans, .ctx, .asm] s x ∧
      OnlyChannel c s x ∧ OnlySlot k s x ∧ OnlyTake t s x ∧
      x.letters[k] = some
        { state := .opened, number := s.nextNumber, chan := c, profile := p, priority := none, stamp := none
          aging := 0, flags := ⟨false, false, false, false, false⟩, contentFrames := 0, instrFrames := 0
          map := [{ take := t, start := 0, count := 0, kind := .content }] } ∧
      x.letterNo = s.nextNumber % 65535 + 1 ∧
      x.takes[t] = some (Take.issued k) ∧
      x.chans[c] = { s.chans[c] with
        state := .recording, slot := some k, cursor := 0, mode := .insert, instruct := false, cont := false,
        idleTimer := some s.profiles[p].idleSeconds, abandonTimer := none } ∧
      x.ctx[c] = { g := s.profiles[p].g0, p := 0, q := 255, low := 0 } ∧
      x.asm[c] = { s.asm[c] with fresh := true }

/-- RECORD in STOPPED with continuation clear makes the record-start edit at the cursor on the lowest eligible take: the
letter plays what it played, and predictor and quiet run start anew. With continuation set it resumes the take and the
open segment with no edit; in RECORDING it answers DONE and has no effect; each refusal of R65 leaves the channel as
it was (R8, R65, R66, R88, R109). -/
def Obligations.RecordStartsOrResumes : Prop :=
  (∀ (c : Chan) (s : State) (k : Slot) (l : Letter) (t : TakeId) (new : Segment),
    new = { take := t, start := 0, count := 0, kind := if s.chans[c].instruct then .instruction else .content } →
    s.serves c .stopped → s.chans[c].cont = false → s.holdsOpen c k l →
    (l.length < 262143 ∨ (s.chans[c].mode = .overwrite ∧ s.chans[c].cursor < l.length)) →
    s.eligible t = true → (∀ u : TakeId, u < t → s.eligible u = false) →
    (∀ e ∈ l.map, e.take ≠ t) → l.map.length + entriesNeeded l.map s.chans[c].cursor ≤ 40 → s.ctl.free ≠ 0 →
    Acks (.record c) s c 1 .done fun x =>
      Frame [.handed, .letters, .takes, .chans, .ctx, .asm] s x ∧ OnlyChannel c s x ∧ OnlySlot k s x ∧
      x.letters[k] = some { l with map := insertAt l.map s.chans[c].cursor new } ∧
      plays (insertAt l.map s.chans[c].cursor new) = plays l.map ∧
      x.takes[t] = some (Take.issued k) ∧
      (∀ u : TakeId, u ≠ t → insideTake l.map s.chans[c].cursor ≠ some u → x.takes[u] = s.takes[u]) ∧
      (∀ u take, insideTake l.map s.chans[c].cursor = some u → s.takes[u] = some take →
        x.takes[u] = some { take with refs := take.refs + 1 }) ∧
      x.chans[c] = { s.chans[c] with
        state := .recording, idleTimer := some (s.profileOf c).idleSeconds, abandonTimer := none } ∧
      x.ctx[c] = { s.ctx[c] with p := 0, q := 255 } ∧ x.asm[c] = { s.asm[c] with fresh := true }) ∧
  ∀ (c : Chan) (s : State),
    (s.serves c .stopped → s.chans[c].cont = true → s.ctl.free ≠ 0 →
      (s.chanLength c < 262143 ∨ (s.chans[c].mode = .overwrite ∧ s.chans[c].cursor < s.chanLength c)) →
      Acks (.record c) s c 1 .done fun x =>
        Frame [.handed, .chans, .asm] s x ∧ OnlyChannel c s x ∧
        x.chans[c] = { s.chans[c] with
          state := .recording, idleTimer := some (s.profileOf c).idleSeconds, abandonTimer := none } ∧
        x.asm[c] = { s.asm[c] with fresh := true }) ∧
    (s.serves c .recording → Acks (.record c) s c 1 .done fun x => Frame [.handed] s x) ∧
    (s.serves c .idle → (∀ k : Slot, s.letters[k].isSome) →
      Acks (.record c) s c 1 .noSlot (OnlyRefused c s)) ∧
    (s.serves c .stopped → 262143 ≤ s.chanLength c →
      s.chans[c].mode = .insert ∨ s.chanLength c ≤ s.chans[c].cursor →
      Acks (.record c) s c 1 .long (OnlyRefused c s)) ∧
    (s.serves c .idle → (∃ k : Slot, s.letters[k] = none) → (∀ t : TakeId, s.eligible t = false) →
      Acks (.record c) s c 1 .noTake (OnlyRefused c s)) ∧
    (s.serves c .stopped → s.chans[c].cont = true → s.ctl.free = 0 → s.chanLength c < 262143 →
      Acks (.record c) s c 1 .storeFull (OnlyRefused c s)) ∧
    (∀ k l, s.serves c .stopped → s.chans[c].cont = false → s.holdsOpen c k l → l.length < 262143 →
      (∃ t : TakeId, s.eligible t = true) → 40 < l.map.length + entriesNeeded l.map s.chans[c].cursor →
      Acks (.record c) s c 1 .mapFull (OnlyRefused c s)) ∧
    (∀ k l, s.serves c .stopped → s.chans[c].cont = false → s.holdsOpen c k l →
      l.length < 262143 ∨ (s.chans[c].mode = .overwrite ∧ s.chans[c].cursor < l.length) →
      (∀ t : TakeId, s.eligible t = false) → Acks (.record c) s c 1 .noTake (OnlyRefused c s)) ∧
    (s.serves c .idle → s.chans[c].slot = none → (∃ k : Slot, s.letters[k] = none) →
      (∃ t : TakeId, s.eligible t = true) → s.ctl.free = 0 →
      Acks (.record c) s c 1 .storeFull (OnlyRefused c s)) ∧
    ∀ k l, s.serves c .stopped → s.chans[c].cont = false → s.holdsOpen c k l →
      l.length < 262143 ∨ (s.chans[c].mode = .overwrite ∧ s.chans[c].cursor < l.length) →
      (∃ t : TakeId, s.eligible t = true) → l.map.length + entriesNeeded l.map s.chans[c].cursor ≤ 40 →
      s.ctl.free = 0 → Acks (.record c) s c 1 .storeFull (OnlyRefused c s)

/-- STOP, SUBMIT and the idle-stop expiry in RECORDING make the channel STOPPING with the pending action of each. A
partial frame is padded and queued, or dropped and counted at 32 entries with INTAKE_OVERFLOW latched; the take writer
counts the frames still to come and holds a stop gap of the drop count (R54 to R56, R67, R72, R80, R102). -/
def Obligations.StopIsInFlight : Prop :=
  ∀ (i : Instr) (pending : PendingAction) (c : Chan) (s : State) (t : TakeId),
    s.serves c .recording → s.writingTake c = some t →
    ((i = .stop c ∧ pending = .stop) ∨ (∃ q, i = .submit c (some q) ∧ pending = .submit q) ∨
      (i = .submit c none ∧ pending = .submit (s.profileOf c).prio) ∨
      (i = .idleStopExpiry c ∧ s.chans[c].idleTimer.isSome ∧ pending = .autoStop)) →
    (s.asm[c].buf ≠ [] → s.frames.length < 32 → Answers i s fun x =>
      Frame [.handed, .chans, .asm, .frames, .stretch] s x ∧ OnlyChannel c s x ∧
      x.chans[c] = { s.chans[c] with state := .stopping, pending := pending, idleTimer := none } ∧
      x.asm[c] = { s.asm[c] with buf := [], drops := 0 } ∧
      x.frames = s.frames ++ [frameOf c t
        (s.asm[c].buf ++ List.replicate (4 - s.asm[c].buf.length) Piece.pad) s.asm[c].drops] ∧
      x.stretch[c] = some { take := t, count := s.stretchFrames t + 1, gap := 0 }) ∧
    (s.asm[c].buf ≠ [] → 32 ≤ s.frames.length → Answers i s fun x =>
      Frame [.handed, .chans, .asm, .stretch, .writer, .dev] s x ∧ OnlyChannel c s x ∧
      x.chans[c] = { s.chans[c] with state := .stopping, pending := pending, idleTimer := none } ∧
      x.asm[c] = { s.asm[c] with buf := [], drops := 0 } ∧
      x.dev = s.dev.set 3 { latched := true, fresh := true } ∧
      x.stretch[c] =
        some { take := t, count := s.stretchFrames t, gap := min 255 (s.asm[c].drops + 1) } ∧
      x.writer = { s.writer with
        gapTurns := if s.stretchFrames t = 0 then s.writer.gapTurns ++ [c] else s.writer.gapTurns }) ∧
    (s.asm[c].buf = [] → 0 < s.stretchFrames t → Answers i s fun x =>
      Frame [.handed, .chans, .asm, .stretch] s x ∧ OnlyChannel c s x ∧
      x.chans[c] = { s.chans[c] with state := .stopping, pending := pending, idleTimer := none } ∧
      x.asm[c] = { s.asm[c] with drops := 0 } ∧
      x.stretch[c] = some { take := t, count := s.stretchFrames t, gap := s.asm[c].drops }) ∧
    (s.asm[c].buf = [] → s.stretchFrames t = 0 → 0 < s.asm[c].drops → Answers i s fun x =>
      Frame [.handed, .chans, .asm, .stretch, .writer] s x ∧ OnlyChannel c s x ∧
      x.chans[c] = { s.chans[c] with state := .stopping, pending := pending, idleTimer := none } ∧
      x.asm[c] = { s.asm[c] with drops := 0 } ∧
      x.stretch[c] = some { take := t, count := 0, gap := s.asm[c].drops } ∧
      x.writer = { s.writer with gapTurns := s.writer.gapTurns ++ [c] })

/-- A stop is completed when the stretch end is taken in STOPPING, or at once when a STOP, SUBMIT or idle-stop expiry
finds nothing in flight. An open segment with frames is kept with continuation set; an empty one is removed and its
take freed. With a pending STOP or AUTO_STOP the channel becomes STOPPED, and the deferred ACK or the AUTO_STOP is
offered; with a pending SUBMIT the letter is queued, or freed when it is empty, and the channel becomes IDLE, with the
deferred ACK and a pick behind it (R60, R71, R76, R82, R89, R112, R139, R199; a close makes no close write behind a
failed closing header, log 16, and the pick follows the ACK, log 18). -/
def Obligations.StopIsCompleted : Prop :=
  ∀ (c : Chan) (s : State) (k : Slot) (l : Letter) (t : TakeId) (take : Take) (e : Segment) (i : Instr)
    (pending : PendingAction) (rest : List Report) (stopped : Bool → Channel) (answer : State → State),
    s.holdsOpen c k l → s.takes[t] = some take → take.state = .writing → take.owner = k →
    entryOf t l.map = some e → (∀ u : TakeId, s.writes c u = true → u = t) →
    ((i = .stretchEnd c ∧ s.chans[c].state = .stopping ∧ s.chans[c].pending = pending ∧
        ∃ before after, s.reports = before ++ [{ chan := c, take := t, kind := .stretchEnd }] ++ after ∧
          (∀ r ∈ before, r.chan ≠ c) ∧ rest = before ++ after) ∨
      (s.serves c .recording ∧ s.asm[c].buf = [] ∧ s.asm[c].drops = 0 ∧ s.stretchFrames t = 0 ∧ rest = s.reports ∧
        ((i = .stop c ∧ pending = .stop) ∨
          (i = .idleStopExpiry c ∧ s.chans[c].idleTimer.isSome ∧ pending = .autoStop) ∨
          (∃ q, i = .submit c (some q) ∧ pending = .submit q) ∨
          (i = .submit c none ∧ pending = .submit (s.profileOf c).prio)))) →
    (∀ cont, stopped cont = { s.chans[c] with
      state := .stopped, cont := cont, pending := .nothing, idleTimer := none,
      abandonTimer := some (s.profileOf c).abandonMinutes }) →
    ((pending = .stop ∧ answer = fun x => x.ack c 2 .done) ∨
        (pending = .autoStop ∧ answer = fun x => x.offerState c .autoStop l.length l.number) →
      (0 < e.count → ∃ x : State, exec i s = .next (answer x) ∧
        Frame [.handed, .chans, .asm, .reports] s x ∧ OnlyChannel c s x ∧ x.asm[c] = s.asm[c] ∧ x.reports = rest ∧
        x.chans[c] = stopped true) ∧
      (e.count = 0 → take = Take.issued k → ∃ x : State, exec i s = .next (answer x) ∧
        Frame [.handed, .chans, .asm, .reports, .letters, .takes] s x ∧ OnlyChannel c s x ∧ OnlySlot k s x ∧
        OnlyTake t s x ∧ x.asm[c] = s.asm[c] ∧ x.letters[k] = some { l with map := removeEntry t l.map } ∧
        x.takes[t] = none ∧ x.chans[c] = stopped false)) ∧
    ∀ (q : Fin 4) (map : List Segment), pending = .submit q →
      ((0 < e.count ∧ map = l.map) ∨ (e.count = 0 ∧ take = Take.issued k ∧ map = removeEntry t l.map)) →
      ∃ x : State, exec i s = .next (x.ackWith c 7 (if l.length = 0 then .empty else .done) s.chans[c].cursor
          l.length l.number).emit ∧
        Frame [.handed, .chans, .asm, .reports, .letters, .takes, .writer, .steps, .emitter] s x ∧
        OnlyChannel c s x ∧ OnlySlot k s x ∧ x.asm[c] = s.asm[c] ∧
        x.chans[c] = { s.chans[c] with
          state := .idle, slot := none, cursor := 0, cont := false, pending := .nothing, idleTimer := none,
          abandonTimer := none } ∧
        (0 < l.length → x.steps = s.steps.set k 0 ∧ x.emitter = { s.emitter with stamp := s.emitter.stamp + 1 } ∧
          x.letters[k] = some { l with
            state := .queued, priority := some q, stamp := some s.emitter.stamp, aging := 0, map := map } ∧
          (0 < e.count → ClosesTake c s x) ∧ (e.count = 0 → OnlyTake t s x ∧ x.takes[t] = none)) ∧
        (l.length = 0 → x.letters[k] = none ∧ x.steps = s.steps ∧ x.emitter = s.emitter)

/-- SEEK sets the cursor to its target, brought into 0 to the letter's length, and clears continuation, which closes a
WRITING take; in IDLE and RECORDING it is answered STATE; a STOP in STOPPED has no effect but on the abandon timer.
EDITMODE and INSTRUCT set their value in IDLE and STOPPED; in STOPPED a change of the value clears continuation (R60,
R67, R68, R69, R89; a close makes no close write behind a failed closing header, which is read from R101, log 16). -/
def Obligations.SeekAndModes : Prop :=
  (∀ (c : Chan) (mode : SeekMode) (value : BitVec 24) (s : State), s.serves c .stopped →
    (Acks (.seek c mode value) s c 3 .done fun x =>
      Frame [.handed, .chans, .takes, .writer, .reports] s x ∧ OnlyChannel c s x ∧ ClosesTake c s x ∧
      x.chans[c] = { s.chans[c] with
        cont := false, abandonTimer := some (s.profileOf c).abandonMinutes,
        cursor := match mode with
          | .absolute => min (s.chanLength c) value.toNat
          | .relative =>
            (max 0 (min (s.chanLength c : Int) ((s.chans[c].cursor : Int) + value.toInt))).toNat }) ∧
    Acks (.stop c) s c 2 .done (OnlyRefused c s)) ∧
  (∀ (c : Chan) (mode : SeekMode) (value : BitVec 24) (s : State), s.serves c .idle ∨ s.serves c .recording →
    Acks (.seek c mode value) s c 3 .state (OnlyRefused c s)) ∧
  ∀ (c : Chan) (s : State) (state : ChanState), s.serves c state → state = .idle ∨ state = .stopped →
    (∀ mode : EditMode, Acks (.editmode c mode) s c 4 .done fun x =>
      Frame [.handed, .chans, .takes, .writer, .reports] s x ∧ OnlyChannel c s x ∧
      (state = .stopped → mode ≠ s.chans[c].mode → ClosesTake c s x) ∧
      (state = .idle ∨ mode = s.chans[c].mode → Frame [.handed, .chans] s x) ∧
      x.chans[c] = { s.chans[c] with
        mode := mode, cont := s.chans[c].cont && (state = .idle || mode = s.chans[c].mode),
        abandonTimer := if state = .stopped then some (s.profileOf c).abandonMinutes
          else s.chans[c].abandonTimer }) ∧
    ∀ on : Bool, Acks (.instruct c on) s c 5 .done fun x =>
      Frame [.handed, .chans, .takes, .writer, .reports] s x ∧ OnlyChannel c s x ∧
      (state = .stopped → on ≠ s.chans[c].instruct → ClosesTake c s x) ∧
      (state = .idle ∨ on = s.chans[c].instruct → Frame [.handed, .chans] s x) ∧
      x.chans[c] = { s.chans[c] with
        instruct := on, cont := s.chans[c].cont && (state = .idle || on = s.chans[c].instruct),
        abandonTimer := if state = .stopped then some (s.profileOf c).abandonMinutes
          else s.chans[c].abandonTimer }

/-- ERASE in STOPPED removes from the letter the frames from the cursor on that it names, the cursor kept and
continuation cleared; a split that would need a 41st entry is refused with MAP_FULL (R70, R113). -/
def Obligations.EraseRemovesFrames : Prop :=
  ∀ (c : Chan) (count : BitVec 24) (s : State) (k : Slot) (l : Letter) (m : Nat),
    s.serves c .stopped → s.holdsOpen c k l →
    m = (if count = 0 then l.length - s.chans[c].cursor else min count.toNat (l.length - s.chans[c].cursor)) →
    (l.map.length < 40 ∨ splitTake 0 s.chans[c].cursor (s.chans[c].cursor + m) l.map = none →
      Acks (.erase c count) s c 6 .done fun x =>
        Frame [.handed, .chans, .letters, .takes, .writer, .reports] s x ∧ OnlyChannel c s x ∧ OnlySlot k s x ∧
        x.chans[c] = { s.chans[c] with
          cont := false, abandonTimer := some (s.profileOf c).abandonMinutes } ∧
        ∃ l' : Letter, x.letters[k] = some l' ∧
          l' = { l with map := l'.map, contentFrames := l'.contentFrames, instrFrames := l'.instrFrames } ∧
          plays l'.map = (plays l.map).take s.chans[c].cursor ++ (plays l.map).drop (s.chans[c].cursor + m)) ∧
    (40 ≤ l.map.length → (splitTake 0 s.chans[c].cursor (s.chans[c].cursor + m) l.map).isSome →
      Acks (.erase c count) s c 6 .mapFull (OnlyRefused c s))

/-- A letter of a STOPPED channel is submitted by SUBMIT, with the priority it resolves to, and by the abandon expiry,
unattended with priority 3: it is QUEUED with the stamp counter's value, and the channel is IDLE; an empty letter is
freed. The answer carries the letter's number, and its length as it stood (R34, R71, R81, R82, R139; the model's choices:
a close makes no close write behind a failed closing header, log 16, and the pick follows the answer, log 18). -/
def Obligations.SubmitQueuesLetter : Prop :=
  ∀ (c : Chan) (s : State) (k : Slot) (l : Letter) (priority : Fin 4) (unattended : Bool) (i : Instr)
    (answer : State → State),
    s.chans[c].state = .stopped → s.holdsOpen c k l →
    ((s.startup.state = .ready ∧ s.restart = none ∧ unattended = false ∧
        (i = .submit c (some priority) ∨ (i = .submit c none ∧ priority = (s.profileOf c).prio)) ∧
        answer = fun x =>
          x.ackWith c 7 (if l.length = 0 then .empty else .done) s.chans[c].cursor l.length l.number) ∨
      (i = .abandonExpiry c ∧ s.chans[c].abandonTimer.isSome ∧ unattended = true ∧ priority = 3 ∧
        answer = fun x => x.offerState c .autoSubmit l.length l.number)) →
    ∃ x : State, exec i s = .next (answer x).emit ∧
      Frame [.handed, .chans, .letters, .takes, .writer, .reports, .steps, .emitter] s x ∧
      OnlyChannel c s x ∧ OnlySlot k s x ∧
      x.chans[c] = { s.chans[c] with
        state := .idle, slot := none, cursor := 0, cont := false, pending := .nothing, idleTimer := none,
        abandonTimer := none } ∧
      (0 < l.length → ClosesTake c s x ∧ x.steps = s.steps.set k 0 ∧
        x.emitter = { s.emitter with stamp := s.emitter.stamp + 1 } ∧
        x.letters[k] = some { l with
          state := .queued, priority := some priority, stamp := some s.emitter.stamp, aging := 0,
          flags := { l.flags with unattended := l.flags.unattended || unattended } }) ∧
      (l.length = 0 → x.letters[k] = none ∧ x.steps = s.steps ∧ x.emitter = s.emitter)

/-- DISCARD frees the open letter and flushes the channel, which becomes IDLE; the queue entries of other channels keep
their order; the ACK carries the letter's number, cursor 0 and length 0 (R57, R63, R73, R114). -/
def Obligations.DiscardFreesLetter : Prop :=
  ∀ (c : Chan) (s : State) (k : Slot) (l : Letter) (state : ChanState), s.serves c state →
    state = .stopped ∨ state = .recording ∨ state = .stopping → s.holdsOpen c k l →
    ∃ x : State, exec (.discard c) s = .next (x.ackWith c 8 .done 0 0 l.number) ∧
      Frame [.handed, .chans, .asm, .stretch, .writer, .frames, .letters, .takes, .reports] s x ∧
      OnlyChannel c s x ∧ OnlySlot k s x ∧ x.letters[k] = none ∧
      x.chans[c] = { s.chans[c] with
        state := .idle, slot := none, cursor := 0, cont := false, pending := .nothing, idleTimer := none,
        abandonTimer := none } ∧
      x.asm[c] = { s.asm[c] with buf := [], drops := 0 } ∧ x.stretch[c] = none ∧
      x.frames = s.frames.filter (fun f => f.chan ≠ c)

/-- POSITION is answered DONE in every bound state with the channel's state, cursor, letter length and letter number as
they stand; nothing at the channel changes but a running abandon timer, started anew (R74). -/
def Obligations.PositionReports : Prop :=
  ∀ (c : Chan) (s : State) (state : ChanState), s.serves c state → state ≠ .unbound →
    ∃ x : State, OnlyRefused c s x ∧
      exec (.position c) s = .next (x.offer (outChannel c) 5 11
        ([9] ++ be8 0 ++ be8 state.code ++ be24 s.chans[c].cursor ++ be24 (s.chanLength c)
          ++ be16 (s.chanLetterNo c)))

/-- A store-full stop, a long stop or a write fault taken in RECORDING or STOPPING flushes the channel's buffer, closes
its take, removes an empty open segment, makes it STOPPED and offers its cell; the ACK of a pending STOP follows, an
AUTO_STOP is not offered, and a pending SUBMIT then queues the letter, or frees an empty one, and is answered (R78, R79,
R82, R112). A report of a take that is no longer the channel's has no effect at the channel (a close makes no close
write behind a failed closing header, log 16; the pick follows the ACK, log 18). -/
def Obligations.TakeWriterStopsChannel : Prop :=
  ∀ (c : Chan) (s : State) (t : TakeId) (i : Instr) (kind : ReportKind) (cell : StateReport),
    ((i = .storeFullStop c ∧ kind = .storeFull ∧ cell = .storeFullStop) ∨
      (i = .longStop c ∧ kind = .long ∧ cell = .longStop) ∨
      (i = .writeFault c ∧ (∃ b, kind = .writeFault b) ∧ cell = .writeFault)) →
    s.reports = [{ chan := c, take := t, kind := kind }] →
    (s.writes c t = false → Answers i s fun x => Frame [.reports] s x ∧ x.reports = []) ∧
    (∀ k l e take, s.holdsOpen c k l → s.writingTake c = some t → (∀ u : TakeId, s.writes c u = true → u = t) →
      s.takes[t] = some take → entryOf t l.map = some e →
      (0 < e.count ∧ take.refs ≠ 0) ∨ (e.count = 0 ∧ take = Take.issued k) →
      s.chans[c].state = .recording ∨ s.chans[c].state = .stopping → ∃ x : State,
        Frame [.chans, .asm, .stretch, .writer, .takes, .letters, .reports] s x ∧ OnlyChannel c s x ∧
        OnlySlot k s x ∧
        (0 < e.count → ClosesTake c s x ∧ x.letters[k] = some l) ∧
        (e.count = 0 → OnlyTake t s x ∧ x.takes[t] = none ∧
          x.letters[k] = some { l with map := removeEntry t l.map }) ∧
        x.asm[c] = { s.asm[c] with buf := [], drops := 0 } ∧ x.stretch[c] = none ∧
        x.chans[c] = { s.chans[c] with
          state := .stopped, cont := false, pending := .nothing, idleTimer := none,
          abandonTimer := some (s.profileOf c).abandonMinutes } ∧
        (s.chans[c].state = .recording ∨ s.chans[c].pending = .autoStop →
          Answers i s fun y => y = { x.offerState c cell l.length l.number with reports := [] }) ∧
        (s.chans[c].state = .stopping → s.chans[c].pending = .stop →
          Answers i s fun y => y = { (x.offerState c cell l.length l.number).ack c 2 .done with reports := [] }) ∧
        ∀ q, s.chans[c].state = .stopping → s.chans[c].pending = .submit q → ∃ z : State,
          Answers i s (fun y => y = { (z.ackWith c 7 (if l.length = 0 then .empty else .done) s.chans[c].cursor
            l.length l.number).emit with reports := [] }) ∧
          Frame [.chans, .letters, .takes, .writer, .reports, .steps, .emitter]
            (x.offerState c cell l.length l.number) z ∧
          OnlyChannel c x z ∧ OnlySlot k x z ∧
          z.chans[c] = { s.chans[c] with
            state := .idle, slot := none, cursor := 0, cont := false, pending := .nothing, idleTimer := none,
            abandonTimer := none } ∧
          (0 < l.length → z.takes = x.takes ∧ z.steps = s.steps.set k 0 ∧
            z.emitter = { s.emitter with stamp := s.emitter.stamp + 1 } ∧
            ∀ m, x.letters[k] = some m → z.letters[k] = some { m with
              state := .queued, priority := some q, stamp := some s.emitter.stamp, aging := 0 }) ∧
          (l.length = 0 → z.letters[k] = none ∧ z.emitter = s.emitter)) ∧
    (∀ number, i = .writeFault c → s.chans[c].state ≠ .unbound →
      Answers (.writeFault c) { s with reports := [{ chan := c, take := t, kind := .lateFault number }] } fun x =>
        x = { s.offerState c .writeFault (s.chanLength c) number with reports := [] })

/-- What is kept for one channel (its record, assembler, coder context, stretch and conditions) is changed by no
command, cell, expiry or report of another channel. -/
def Obligations.ChannelsAreIsolated : Prop :=
  ∀ (i : Instr) (c : Chan) (s t : State), channelRow i = some c → exec i s = .next t → OnlyChannel c s t

/-! ### The frame coder -/

/-- The IDLE coder takes the oldest entry: with its channel's context and profile as they stand when the entry's take is
the one its channel is writing, and otherwise it discards the entry whole and stays IDLE. When the arithmetic of a frame
is complete (`codeFrame`, which FrameIsCoded pins) the coder holds its items, a drop gap first, whatever became of the
take. The context is written back only while the take is still the channel's: its gain bounded by the profile as it
stands then, CLIP latched by a loud frame with 8 clipped samples, and LOW_LEVEL with the letter's flag at a run of 250
(R1 to R5, R7, R22, R23, R25). -/
def Obligations.CoderTakesAndWritesBack : Prop :=
  (∀ (s : State) (f : FrameEntry) (rest : List FrameEntry), s.coder = .idle → s.frames = f :: rest →
    Answers .coderTakeFrame s fun t =>
      t.frames = rest ∧
      (s.writes f.chan f.take = true → Frame [.frames, .coder] s t ∧
        t.coder = .coding f s.ctx[f.chan] (s.profileOf f.chan)) ∧
      (s.writes f.chan f.take = false → Frame [.frames] s t)) ∧
  ∀ (s : State) (f : FrameEntry) (ctx : CoderCtx) (pf now : Profile) (r : FrameResult),
    s.coder = .coding f ctx pf → now = s.profileOf f.chan → r = codeFrame f pf ctx →
    Answers .coderArithmeticDone s fun t =>
      t.coder = .delivering f.take
        ((if f.drops = 0 then [] else
          [{ chan := f.chan, take := f.take, content := .gaps f.drops 0 true, dropGap := true }]) ++
          [{ chan := f.chan, take := f.take, content := r.content, dropGap := false }]) ∧
      (s.writes f.chan f.take = false → Frame [.coder] s t) ∧
      (s.writes f.chan f.take = true → Frame [.coder, .ctx, .chanConds, .letters] s t ∧ OnlyChannel f.chan s t ∧
        t.ctx[f.chan] = { r.ctx with
          g := if now.mode = .fixed then now.g0 else max now.gmin (min now.gmax r.ctx.g) } ∧
        t.chanConds[f.chan] = { s.chanConds[f.chan] with
          clip := if f.loud pf ctx.g && decide (8 ≤ f.clippedBy ctx.g) then { latched := true, fresh := true }
            else s.chanConds[f.chan].clip
          lowLevel := if f.loud pf ctx.g && decide (250 ≤ f.lowAfter pf ctx) then { latched := true, fresh := true }
            else s.chanConds[f.chan].lowLevel } ∧
        ∀ (k : Slot) (l : Letter), s.holdsOpen f.chan k l → OnlySlot k s t ∧
          t.letters[k] = some { l with flags := { l.flags with
            lowLevel := l.flags.lowLevel || (f.loud pf ctx.g && decide (250 ≤ f.lowAfter pf ctx)) } })

/-- A code is the step in units of 2^e, to the nearest with halves away from zero, brought into −q_max..q_max; every
exponent is the smallest of 0..12 at which the largest step is in reach, or 12 (law L7). The decoder of R18 regains
from predictor, exponent and codes a signal that ends at the predictor the coder writes back, and that lies within half
a step of the samples where no code was clamped. The 128 codes fill 16b bytes, bit by bit, of a record of 4 + 16b
(R16 to R19). -/
def Obligations.CodesDecode : Prop :=
  (∀ (b e d : Nat) (p : Int) (ys : List Int), 3 ≤ b → b ≤ 5 → -32768 ≤ p → p ≤ 32767 →
    (∀ y ∈ ys, -32768 ≤ y ∧ y ≤ 32767) →
    exponentFor b d ≤ 12 ∧ (d ≤ (2 ^ (b - 1) - 1) * 2 ^ exponentFor b d ∨ exponentFor b d = 12) ∧
    (∀ n, n < exponentFor b d → (2 ^ (b - 1) - 1) * 2 ^ n < d) ∧
    (codeSamples b e p ys).codes.length = ys.length ∧
    (∀ c ∈ (codeSamples b e p ys).codes, -((2 : Int) ^ (b - 1) - 1) ≤ c ∧ c ≤ (2 : Int) ^ (b - 1) - 1) ∧
    (decodeSamplesFrom e p (codeSamples b e p ys).codes).getLast?.getD p = (codeSamples b e p ys).final ∧
    ((codeSamples b e p ys).overload = false → ∀ pair ∈ ys.zip (decodeSamplesFrom e p (codeSamples b e p ys).codes),
      2 * (pair.1 - pair.2).natAbs ≤ 2 ^ e)) ∧
  (∀ (b e : Nat) (p y d raw c : Int) (ys : List Int), d = y - p → raw = roundedCode e d →
    c = max (-((2 : Int) ^ (b - 1) - 1)) (min ((2 : Int) ^ (b - 1) - 1) raw) →
    2 * (d - raw * 2 ^ e).natAbs ≤ 2 ^ e ∧
    (2 * (d - raw * 2 ^ e).natAbs = 2 ^ e → 0 < e → d.natAbs < (raw * 2 ^ e).natAbs) ∧
    codeSamples b e p (y :: ys) =
      { codes := c :: (codeSamples b e (max (-32768) (min 32767 (p + c * 2 ^ e))) ys).codes
        final := (codeSamples b e (max (-32768) (min 32767 (p + c * 2 ^ e))) ys).final
        overload := raw ≠ c || (codeSamples b e (max (-32768) (min 32767 (p + c * 2 ^ e))) ys).overload }) ∧
  ∀ (b e : Nat) (p0 : Int) (patched clipped overload : Bool) (codes : List Int), codes.length = 128 →
    (packCodes b codes).length = 16 * b ∧
    ((packCodes b codes).flatMap fun x => (List.range 8).map fun i => x.getMsbD i) = codes.flatMap (codeBits b) ∧
    speechRecord b e p0 patched clipped overload codes =
      [BitVec.ofNat 8 (0x30 + b),
        BitVec.ofNat 8 (16 * e + 4 * patched.toNat + 2 * clipped.toNat + overload.toNat)] ++
        wordBytes (BitVec.ofInt 16 p0) ++ packCodes b codes

/-- The arithmetic of a frame, from its scaled samples and their level A: loud at the threshold, with the gate off, and
never all-filler; the quiet run and the hangover; a gap frame with its noise level and predictor 0, or a SPEECH record
from the working predictor, which is 0 behind a drop gap; the gain control's three cases; CLIP at 8 clipped samples;
the low-level run, and LOW_LEVEL at 250 (R3, R11 to R16, R19, R21, R23 to R25). -/
def Obligations.FrameIsCoded : Prop :=
  (∀ (g : Nat) (x v : Int), 256 * v ≤ x * g + 128 → x * g + 128 < 256 * v + 256 →
    scaled g x = max (-32768) (min 32767 v) ∧ (isClipped g x = true ↔ v < -32768 ∨ 32767 < v)) ∧
  (∀ (p : Int) (ys : List Int) (d : Nat),
    largestStep p ys ≤ d ↔ ∀ pair ∈ (p :: ys).zip ys, (pair.2 - pair.1).natAbs ≤ d) ∧
  ∀ (f : FrameEntry) (pf : Profile) (ctx : CoderCtx) (ys : List Int) (A clipped q run : Nat) (loud : Bool) (p0 : Int)
    (e : Nat) (coded : Coded) (r : FrameResult),
    r = codeFrame f pf ctx → ys = f.samples.map (fun x => scaled ctx.g x.toInt) →
    128 * A ≤ (ys.map Int.natAbs).sum → (ys.map Int.natAbs).sum < 128 * A + 128 →
    clipped = f.samples.countP (fun x => isClipped ctx.g x.toInt) →
    (loud = true ↔ f.allFiller = false ∧ (pf.thr = 0 ∨ pf.thr ≤ A)) →
    q = (if loud then 0 else min 255 (ctx.q + 1)) → p0 = (if f.drops = 0 then ctx.p else 0) →
    run = (if loud then if pf.target ≤ 2 * A then 0 else if ctx.g = pf.gmax then ctx.low + 1 else ctx.low
      else ctx.low) →
    e = exponentFor pf.width (largestStep p0 ys) → coded = codeSamples pf.width e p0 ys →
    r.ctx.q = q ∧
    (f.allFiller = true ∨ (loud = false ∧ pf.hang < q) → r.ctx.p = 0 ∧
      r.content = .gaps 1 (if f.allFiller then 0 else BitVec.ofNat 8 (min 255 (A / 16))) (f.patched || f.allFiller)) ∧
    (f.allFiller = false → loud = true ∨ q ≤ pf.hang → r.ctx.p = coded.final ∧
      r.content =
        .speech (speechRecord pf.width e p0 f.patched (0 < clipped) coded.overload coded.codes) f.patched) ∧
    (loud = false ∨ pf.mode = .fixed → r.ctx.g = ctx.g) ∧
    (loud = true → pf.mode = .regulated →
      (8 ≤ clipped → r.ctx.g = max pf.gmin (ctx.g - max 1 (ctx.g / 8))) ∧
      (clipped < 8 → 4 * A < 3 * pf.target → r.ctx.g = min pf.gmax (ctx.g + max 1 (ctx.g / 32))) ∧
      (clipped < 8 → 3 * pf.target ≤ 4 * A → 5 * pf.target < 4 * A →
        r.ctx.g = max pf.gmin (ctx.g - max 1 (ctx.g / 16))) ∧
      (clipped < 8 → 3 * pf.target ≤ 4 * A → 4 * A ≤ 5 * pf.target → r.ctx.g = ctx.g)) ∧
    (r.clip = true ↔ loud = true ∧ 8 ≤ clipped) ∧ (r.lowLevel = true ↔ loud = true ∧ 250 ≤ run) ∧
    r.ctx.low = if loud = true ∧ 250 ≤ run then 0 else run

/-! ### The take writer and the store -/

/-- A READY take writer takes an outstanding close write first, then a stop gap whose turn has come, then the coder's
item, whose record it writes behind the records of the take's current block; it refuses an item whose take is no
longer its channel's. An item that needs a block, for want of one or because the current one is full, makes it read the
ring, or take a walk step when the ring is empty, or raise a store-full stop when none can be had. A walk step is taken
when it is due, or when there is nothing else: a header read of the first block, or the return of the last block (R90
to R92, R95 to R100, R102; when a walk step is due is the model's reading, log 17, and so is that a reported stop refuses
later items, which `live` tests, log 13). -/
def Obligations.TakeWriterTakesWork : Prop :=
  ∀ s : State, s.writer.hand = none →
    (∀ t rest take b, s.writer.closeQueue = t :: rest → s.takes[t] = some take → take.current = some b →
      s.storeFree → Answers .takeWriterTakeWork s fun x =>
        Frame [.writer, .ctl] s x ∧
        x.writer = { s.writer with hand := some (.close t false), closeQueue := rest } ∧
        x.ctl = { s.ctl with st := .busy (.headerWrite b (take.header t 0)) false }) ∧
    (∀ (c : Chan) (rest : List Chan) (g : Stretch) (take : Take) (b : BlockNo),
      s.writer.closeQueue = [] → s.writer.gapTurns = c :: rest →
      s.stretch[c] = some g → s.live c g.take = true → s.commitRoom c ≠ 0 → s.takes[g.take] = some take →
      take.current = some b → take.lastGap = none → take.view.length + 3 ≤ 500 → s.storeFree →
      Answers .takeWriterTakeWork s fun x =>
        Frame [.writer, .stretch, .ctl] s x ∧ x.stretch[c] = none ∧
        x.writer = { s.writer with
          gapTurns := rest
          hand := some (.job { chan := c, take := g.take, content := .gaps g.gap 0 true, origin := .stopGap,
                               phase := .write false }) } ∧
        x.ctl = { s.ctl with st := .busy (.recordWrite b take.view.length [0x21, 1, 0]) false }) ∧
    (∀ (t : TakeId) (it : Item) (rest : List Item), s.writer.closeQueue = [] → s.writer.gapTurns = [] →
      s.writer.walkFirst = false → s.coder = .delivering t (it :: rest) →
      (s.live it.chan it.take = true → s.commitRoom it.chan ≠ 0 → ∀ take, s.takes[it.take] = some take →
        (∀ b, take.current = some b → it.content.extends take = none →
          take.view.length + it.content.record.length ≤ 500 → s.storeFree →
          Answers .takeWriterTakeWork s fun x =>
            Frame [.writer, .coder, .ctl] s x ∧
            x.coder = (if rest = [] then .idle else .delivering t rest) ∧
            x.ctl = { s.ctl with st := .busy (.recordWrite b take.view.length it.content.record) false }) ∧
        (∀ b g, take.current = some b → it.content.extends take = some g → s.storeFree →
          Answers .takeWriterTakeWork s fun x =>
            Frame [.writer, .coder, .ctl] s x ∧
            x.ctl = { s.ctl with st := .busy (.gapCountWrite b g.offset (g.count + 1)) false }) ∧
        ((take.current = none ∨
            (∃ b, take.current = some b ∧ it.content.extends take = none ∧
              500 < take.view.length + it.content.record.length ∧ it.content.record ≠ [])) →
          (s.ctl.free ≠ 0 → s.storeFree → Answers .takeWriterTakeWork s fun x =>
            Frame [.writer, .coder, .ctl] s x ∧ x.ctl = { s.ctl with st := .busy (.ringRead s.ctl.head) false } ∧
            x.coder = (if rest = [] then .idle else .delivering t rest) ∧
            ∃ j, x.writer.hand = some (.job j) ∧ j.chan = it.chan ∧ j.take = it.take ∧ j.content = it.content ∧
              j.phase = .allocate) ∧
          (s.ctl.free = 0 → s.writer.walkList = [] → Answers .takeWriterTakeWork s fun x =>
            Frame [.writer, .coder, .dev, .reports, .stretch] s x ∧ x.writer.hand = none ∧
            x.latched .storeFull = true ∧
            x.reports = s.reports ++ [{ chan := it.chan, take := it.take, kind := .storeFull }]) ∧
          ∀ u others walked b, s.ctl.free = 0 → s.writer.walkList = u :: others → s.takes[u] = some walked →
            walked.first = some b → s.storeFree → Answers .takeWriterTakeWork s fun x =>
              Frame [.writer, .coder, .ctl] s x ∧
              x.ctl = { s.ctl with
                st := .busy (if 1 < walked.blocks then .headerRead b else .ringWrite s.ctl.tail b) false } ∧
              ∃ j, x.writer.hand = some (.job j) ∧ j.chan = it.chan ∧ j.take = it.take ∧ j.content = it.content ∧
                j.phase = .walk u (if 1 < walked.blocks then .header false else .giveBack none))) ∧
      (s.live it.chan it.take = false → s.stretch[it.chan] = none → Answers .takeWriterTakeWork s fun x =>
        Frame [.writer, .coder] s x ∧ x.writer.hand = none ∧
        x.coder = (if rest = [] then .idle else .delivering t rest)) ∧
      (s.live it.chan it.take = true → s.commitRoom it.chan = 0 → Answers .takeWriterTakeWork s fun x =>
        Frame [.writer, .coder, .reports, .stretch] s x ∧
        x.reports = s.reports ++ [{ chan := it.chan, take := it.take, kind := .long }])) ∧
    ∀ u others walked b, s.writer.closeQueue = [] → s.writer.gapTurns = [] → s.writer.walkList = u :: others →
      s.takes[u] = some walked → walked.first = some b → s.storeFree →
      s.writer.walkFirst = true ∨ (∀ t it rest, s.coder ≠ .delivering t (it :: rest)) →
      Answers .takeWriterTakeWork s fun x =>
        Frame [.writer, .ctl] s x ∧
        x.writer = { s.writer with
          walkFirst := false, hand := some (.walk u (if 1 < walked.blocks then .header false else .giveBack none)) } ∧
        x.ctl = { s.ctl with
          st := .busy (if 1 < walked.blocks then .headerRead b else .ringWrite s.ctl.tail b) false }

/-- At the end of its record write a speech frame or a gap frame is stored and committed: its bytes stand in the block,
the take has one frame and record more, or one count more in its last gap, and the frame joins the open segment with the
cursor one further; in OVERWRITE inside the letter the entry behind loses a frame, and its take a reference if it loses
its last. Behind the last frame of an item the take writer is READY: a frame's own item lowers the stretch count, at 0
of which the stop gap's turn has come or the stretch end is reported; a drop gap leaves it; a stop gap is followed by the
stretch end. Behind another gap frame of an item the next one extends the last gap; the take that loses its last reference there may
enter the walk list (R26, R88, R97 to R99, R102, R110,
R111; an item of a take that has ended is refused, which `live` tests, logs 12 and 13). -/
def Obligations.StoredFrameIsCommitted : Prop :=
  ∀ (s : State) (a : Access) (b : BlockNo) (place : Nat) (bytes : List Byte) (patched : Bool) (j : Job) (k : Slot)
    (l : Letter) (take take' : Take) (e : Segment),
    s.serving a → s.ctl.waiting = [] → s.writer.hand = some (.job j) → s.live j.chan j.take = true →
    s.holdsOpen j.chan k l → s.takes[j.take] = some take → entryOf j.take l.map = some e →
    (∀ f, entryAfter j.take l.map = some f → f.take ≠ j.take) →
    ((a = .recordWrite b place bytes ∧ j.content = .speech bytes patched ∧
        take' = { take with
          view := take.view ++ bytes, recs := take.recs + 1, frames := take.frames + 1, lastGap := none }) ∨
      (∃ n level, a = .recordWrite b place bytes ∧ bytes = [if patched then 0x21 else 0x20, 1, level] ∧
        j.content = .gaps n level patched ∧ j.content.extends take = none ∧
        take' = { take with
          view := take.view ++ bytes, recs := take.recs + 1, frames := take.frames + 1,
          lastGap := some { offset := take.view.length, count := 1, patched := patched } }) ∨
      (∃ n level g, a = .gapCountWrite b g.offset (g.count + 1) ∧ place = g.offset + 1 ∧ bytes = be8 (g.count + 1) ∧
        j.content = .gaps n level patched ∧ j.content.extends take = some g ∧
        take' = { take with
          view := take.view.set place (BitVec.ofNat 8 (g.count + 1)), frames := take.frames + 1,
          lastGap := some { g with count := g.count + 1 } })) →
    (j.content.rest = none ∨ (2 ≤ s.commitRoom j.chan ∧ take.current.isSome ∧
      ∃ g, take'.lastGap = some g ∧ g.count < 255)) →
    Answers .recordWriteDone s fun x =>
      Frame [.store, .ctl, .writer, .takes, .letters, .chans, .reports, .stretch] s x ∧ OnlyChannel j.chan s x ∧
      OnlySlot k s x ∧ StoreWrites s x (s.blockBase b + 12 + place) bytes ∧ x.takes[j.take] = some take' ∧
      (∀ u : TakeId, u ≠ j.take → (∀ f, entryAfter j.take l.map = some f → f.take ≠ u) → x.takes[u] = s.takes[u]) ∧
      (∀ f other, entryAfter j.take l.map = some f → s.takes[f.take] = some other → 1 < other.refs →
        x.takes[f.take] = some { other with
          refs := if s.chans[j.chan].mode = .overwrite ∧ s.chans[j.chan].cursor < l.length ∧ f.count ≤ 1
            then other.refs - 1 else other.refs }) ∧
      x.chans[j.chan] = { s.chans[j.chan] with cursor := s.chans[j.chan].cursor + 1 } ∧
      (∃ l' : Letter, x.letters[k] = some l' ∧ l'.flags = { l.flags with patched := l.flags.patched || patched } ∧
        l'.map = commitFrame j.take
          (decide (s.chans[j.chan].mode = .overwrite) && decide (s.chans[j.chan].cursor < l.length)) l.map ∧
        (s.chans[j.chan].mode = .insert → l'.length = l.length + 1)) ∧
      (j.content.rest = none → x.ctl = { s.ctl with st := .idle } ∧ x.writer.hand = none ∧
        (j.origin = .dropGap ∨ (j.origin = .frame ∧ s.stretch[j.chan] = none) →
          x.stretch[j.chan] = s.stretch[j.chan] ∧ (s.chans[j.chan].mode = .insert → x.reports = s.reports)) ∧
        (∀ g, j.origin = .frame → s.stretch[j.chan] = some g → g.take = j.take →
          (1 < g.count → x.stretch[j.chan] = some { g with count := g.count - 1 }) ∧
          (g.count = 1 → g.gap ≠ 0 → x.stretch[j.chan] = some { g with count := 0 } ∧
            x.writer.gapTurns = s.writer.gapTurns ++ [j.chan]) ∧
          (g.count = 1 → g.gap = 0 → x.stretch[j.chan] = none ∧
            x.reports.getLast? = some { chan := j.chan, take := j.take, kind := .stretchEnd })) ∧
        (j.origin = .stopGap → x.stretch[j.chan] = none ∧
          x.reports.getLast? = some { chan := j.chan, take := j.take, kind := .stretchEnd })) ∧
      ∀ n level current g, j.content = .gaps n level patched → 1 < n → take.current = some current →
        take'.lastGap = some g →
        x.ctl = { s.ctl with st := .busy (.gapCountWrite current g.offset (g.count + 1)) false } ∧
        x.stretch = s.stretch ∧
        ∃ freed : List TakeId, x.writer = { s.writer with
            hand := some (.job { j with content := .gaps (n - 1) level patched, phase := .write false })
            walkList := s.writer.walkList ++ freed } ∧
          ∀ u ∈ freed, s.chans[j.chan].mode = .overwrite ∧ s.chans[j.chan].cursor < l.length ∧
            ∃ f, entryAfter j.take l.map = some f ∧ f.take = u ∧ f.count ≤ 1

/-- What the map edits do to the frames a letter plays: the record-start edit plays the same frames; an erase plays
those before and those behind its range; a commit puts one frame of the take at the end of its entry, and with `trim`
takes one frame away behind it (R109, R110, R111, R113). -/
def Obligations.EditsPlayBack : Prop :=
  (∀ (m : List Segment) (p : Nat) (new : Segment), new.count = 0 → plays (insertAt m p new) = plays m) ∧
  (∀ (m : List Segment) (p n : Nat), plays (eraseFrom 0 p (p + n) m) = (plays m).take p ++ (plays m).drop (p + n)) ∧
  (∀ (before behind : List Segment) (e : Segment) (trim : Bool),
    (∀ x ∈ before, x.take ≠ e.take) → (∀ x ∈ behind, 1 ≤ x.count) →
    plays (commitFrame e.take trim (before ++ e :: behind)) =
      plays before ++ e.plays ++ [(e.take, e.start + e.count)] ++ (plays behind).drop trim.toNat) ∧
  ∀ (m : List Segment) (p : Nat) (new : Segment), (insertAt m p new).length = m.length + entriesNeeded m p

/-- A header write ends COMPLETE: its bytes stand in the block; a take's close write is no longer outstanding, and its
take, if nothing names it, enters the walk list; the closing header of a full block links the new block, into which
the item in hand is stored (R90, R91, R97; that a verify which waits for the close write goes on before the emitter does
is the model's order, log 18). -/
def Obligations.HeaderWriteEnds : Prop :=
  ∀ (s : State) (b : BlockNo) (bytes : List Byte), s.serving (.headerWrite b bytes) → s.ctl.waiting = [] →
    (∀ t again take, s.writer.hand = some (.close t again) → s.takes[t] = some take → take.stranded = false →
      take.state = .closed → take.first.isSome → t ∉ s.writer.walkList → ∃ x : State,
        exec .headerWriteDone s = .next x.resumeVerify.emit ∧
        Frame [.store, .ctl, .writer, .takes] s x ∧ OnlyTake t s x ∧ StoreWrites s x (s.blockBase b) bytes ∧
        x.ctl = { s.ctl with st := .idle } ∧ x.takes[t] = some { take with closeWrite := false } ∧
        x.writer = { s.writer with
          hand := none
          walkList := if take.refs = 0 then s.writer.walkList ++ [t] else s.writer.walkList }) ∧
    ∀ j new again take, s.writer.hand = some (.job j) → j.phase = .closeOld new again →
      s.takes[j.take] = some take → s.live j.chan j.take = true → s.commitRoom j.chan ≠ 0 →
      j.content.record.length ≤ 500 →
      Answers .headerWriteDone s fun x =>
        Frame [.store, .ctl, .writer, .takes] s x ∧ OnlyTake j.take s x ∧
        StoreWrites s x (s.blockBase b) bytes ∧
        x.takes[j.take] = some { take with
          first := some (take.first.getD new), current := some new, blocks := take.blocks + 1, view := [], recs := 0,
          blkFirst := take.frames, lastGap := none } ∧
        x.ctl = { s.ctl with st := .busy (.recordWrite new 0 j.content.record) false }

/-- A walk's header read that matches hands the first block to the ring tail; one that does not match strands the take
with STORE_CHECK latched; after the ring write the take's first block is the next one, and after the last block the
take is FREE (R92, R93, R131, R133). -/
def Obligations.WalkReturnsBlocks : Prop :=
  (∀ (s : State) (changed : List Host.Cell) (b : BlockNo) (t : TakeId) (again : Bool) (take : Take) (h : BlockHeader),
    s.serving (.headerRead b) → s.ctl.waiting = [] → s.writer.hand = some (.walk t (.header again)) →
    s.takes[t] = some take → h = (s.changeStore changed).headerIn b →
    (h.take.toNat = t.val → s.isUsable h.next = true → Answers (.walkHeaderReadDone changed) s fun x =>
      Frame [.ctl, .writer] (s.changeStore changed) x ∧
      x.ctl = { s.ctl with st := .busy (.ringWrite s.ctl.tail b) false } ∧
      x.writer = { s.writer with hand := some (.walk t (.giveBack (some h.next))) }) ∧
    (h.take.toNat ≠ t.val ∨ s.isUsable h.next = false → Answers (.walkHeaderReadDone changed) s fun x =>
      Frame [.ctl, .writer, .takes, .dev] (s.changeStore changed) x ∧ OnlyTake t s x ∧
      x.latched .storeCheck = true ∧ x.takes[t] = some { take with stranded := true } ∧
      x.writer = { s.writer with hand := none, walkList := s.writer.walkList.erase t })) ∧
  ∀ (s : State) (slot : Nat) (b : BlockNo) (t : TakeId) (next : Option BlockNo) (take : Take),
    s.serving (.ringWrite slot b) → s.ctl.waiting = [] → s.writer.hand = some (.walk t (.giveBack next)) →
    s.takes[t] = some take → Answers .ringWriteDone s fun x =>
      Frame [.store, .ctl, .writer, .takes] s x ∧ OnlyTake t s x ∧ StoreWrites s x (2 * slot) (wordBytes b) ∧
      x.ctl = { s.ctl with
        st := .idle, tail := (s.ctl.tail + 1) % s.ctl.settings.blocks, free := s.ctl.free + 1,
        low := s.ctl.low && decide (s.ctl.free + 1 < s.ctl.settings.mark.toNat) } ∧
      (∀ n, next = some n → x.takes[t] = some { take with first := some n, blocks := take.blocks - 1 } ∧
        x.writer = { s.writer with hand := none }) ∧
      (next = none → x.takes[t] = none ∧
        x.writer = { s.writer with hand := none, walkList := s.writer.walkList.erase t })

/-- An allocation's ring read advances the head and lowers the free count, with STORE_LOW latched when it falls below
the mark; a take without a block stores its record at the new block's start (R97, R130, R133). -/
def Obligations.RingReadAllocates : Prop :=
  ∀ (s : State) (changed : List Host.Cell) (slot : Nat) (j : Job) (take : Take) (b : BlockNo),
    s.serving (.ringRead slot) → s.ctl.waiting = [] → s.writer.hand = some (.job j) →
    s.live j.chan j.take = true → s.takes[j.take] = some take → s.commitRoom j.chan ≠ 0 →
    j.content.record.length ≤ 500 → b = (s.changeStore changed).ringSlot slot →
    (take.current = none → Answers (.ringReadDone changed) s fun x =>
      Frame [.ctl, .writer, .takes, .dev] (s.changeStore changed) x ∧ OnlyTake j.take s x ∧
      x.takes[j.take] = some { take with
        first := some (take.first.getD b), current := some b, blocks := take.blocks + 1, view := [], recs := 0,
        blkFirst := take.frames, lastGap := none } ∧
      x.ctl = { s.ctl with
        st := .busy (.recordWrite b 0 j.content.record) false
        head := (s.ctl.head + 1) % s.ctl.settings.blocks, free := s.ctl.free - 1
        low := s.ctl.low || decide (s.ctl.free - 1 < s.ctl.settings.mark.toNat) } ∧
      x.dev = (if s.ctl.free - 1 < s.ctl.settings.mark.toNat ∧ s.ctl.low = false
        then s.dev.set 5 { latched := true, fresh := true } else s.dev)) ∧
    ∀ old, take.current = some old → Answers (.ringReadDone changed) s fun x =>
      Frame [.ctl, .writer, .dev] (s.changeStore changed) x ∧
      x.ctl = { s.ctl with
        st := .busy (.headerWrite old (take.header j.take b)) false
        head := (s.ctl.head + 1) % s.ctl.settings.blocks, free := s.ctl.free - 1
        low := s.ctl.low || decide (s.ctl.free - 1 < s.ctl.settings.mark.toNat) }

/-- The rebuild writes block number N/256 + i to ring slot i, slot by slot; with the last slot all usable blocks are
free, STORE_LOW is latched when that is below the mark, start-up enters READY, and a restart in flight is answered
(R133, R134, R183, R193; that STORE_LOW is latched before that REPLY is offered is the model's order, log 18). -/
def Obligations.RebuildFillsRing : Prop :=
  ∀ (s : State) (i : Nat), s.ctl.st = .rebuilding i →
    (i + 1 < s.ctl.settings.usable → Answers .rebuildWriteDone s fun t =>
      Frame [.store, .ctl] s t ∧
      StoreWrites s t (2 * i) (wordBytes (BitVec.ofNat 16 (s.ctl.settings.ringBlocks + i))) ∧
      t.ctl = { s.ctl with st := .rebuilding (i + 1) }) ∧
    (s.ctl.settings.usable ≤ i + 1 → s.ctl.waiting = [] → ∃ x : State,
      Frame [.store, .ctl, .dev, .startup, .restart] s x ∧
      StoreWrites s x (2 * i) (wordBytes (BitVec.ofNat 16 (s.ctl.settings.ringBlocks + i))) ∧
      x.ctl = { s.ctl with
        st := .idle, head := 0, tail := s.ctl.settings.usable, free := s.ctl.settings.usable
        low := decide (s.ctl.settings.usable < s.ctl.settings.mark.toNat) } ∧
      x.dev = (if s.ctl.settings.usable < s.ctl.settings.mark.toNat
        then s.dev.set 5 { latched := true, fresh := true } else s.dev) ∧
      (s.startup.state = .storeInit → x.startup = { s.startup with state := .ready }) ∧
      (s.startup.state ≠ .storeInit → x.startup = s.startup) ∧ x.restart = none ∧
      (s.restart = none → exec .rebuildWriteDone s = .next x) ∧
      ∀ tag, s.restart = some tag → exec .rebuildWriteDone s = .next
        (x.reply tag 0x13 .ok (be16 s.ctl.settings.usable ++ be16 s.ctl.settings.usable)))

/-- A *READY* timeout latches STORE_TIMEOUT and may have placed part of a write. A ring access is made again; a first
failed write or walk read of the take writer is tried once more. A second failed write is a write fault, with the
letter's flag and a report, a new block being handed back; a second failed walk read strands the take with STORE_CHECK; a
failed verify read is a bad block (R93, R101, R119, R120, R132, R175). That each byte of such a write is old or new is
the model's choice (log 7), and so is that the event is disregarded outside wait mode READY (log 1); a close write that
fails ends like one that succeeds, and an item of an ended take is refused (logs 12 and 13); the REPLY of an ended verify
comes before the pick, and a verify that waits for a close write goes on before the emitter (log 18). -/
def Obligations.TimeoutsAreHandled : Prop :=
  ∀ (placed : List Bool) (s : State),
    (s.ctl.settings.wait ≠ .onReady → Answers (.readyTimeout placed) s fun t => t = s) ∧
    (s.ctl.settings.wait = .onReady →
      (∀ a, s.serving a → a.isRing = true → Answers (.readyTimeout placed) s fun t =>
        Frame [.store, .dev] s t ∧ t.latched .storeTimeout = true ∧ StoreCut s t) ∧
      (∀ i, s.ctl.st = .rebuilding i → Answers (.readyTimeout placed) s fun t =>
        Frame [.store, .dev] s t ∧ t.latched .storeTimeout = true ∧ StoreCut s t) ∧
      (∀ a hand again, s.serving a → s.ctl.waiting = [] → s.writer.hand = some hand →
        (∃ j, ((∃ b n bytes, a = .recordWrite b n bytes) ∨ (∃ b n count, a = .gapCountWrite b n count)) ∧
          hand = .job j ∧ j.phase = .write false ∧ again = .job { j with phase := .write true }) ∨
        (∃ b bytes t, a = .headerWrite b bytes ∧ hand = .close t false ∧ again = .close t true) ∨
        (∃ b bytes j new, a = .headerWrite b bytes ∧ hand = .job j ∧ j.phase = .closeOld new false ∧
          again = .job { j with phase := .closeOld new true }) ∨
        (∃ b t, a = .headerRead b ∧ hand = .walk t (.header false) ∧ again = .walk t (.header true)) ∨
        (∃ b j t, a = .headerRead b ∧ hand = .job j ∧ j.phase = .walk t (.header false) ∧
          again = .job { j with phase := .walk t (.header true) }) →
        Answers (.readyTimeout placed) s fun t =>
          Frame [.store, .dev, .writer] s t ∧ t.latched .storeTimeout = true ∧ StoreCut s t ∧
          t.writer = { s.writer with hand := some again }) ∧
      (∀ a j take l, s.serving a → s.ctl.waiting = [] → s.writer.hand = some (.job j) →
        s.live j.chan j.take = true → s.takes[j.take] = some take → s.letters[take.owner] = some l →
        (((∃ b n bytes, a = .recordWrite b n bytes) ∨ (∃ b n count, a = .gapCountWrite b n count)) →
          j.phase = .write true → Answers (.readyTimeout placed) s fun t =>
            Frame [.store, .dev, .writer, .ctl, .letters, .reports, .stretch] s t ∧ OnlySlot take.owner s t ∧
            t.latched .storeTimeout = true ∧ StoreCut s t ∧ t.ctl.st = .idle ∧ t.writer.hand = none ∧
            t.stretch[j.chan] = none ∧
            t.letters[take.owner] = some { l with flags := { l.flags with writeFault := true } } ∧
            t.reports = s.reports ++ [{ chan := j.chan, take := j.take, kind := .writeFault false }]) ∧
        (∀ b bytes new, a = .headerWrite b bytes → j.phase = .closeOld new true →
          Answers (.readyTimeout placed) s fun t =>
            Frame [.store, .dev, .writer, .ctl, .letters, .reports, .stretch] s t ∧ OnlySlot take.owner s t ∧
            t.latched .storeTimeout = true ∧ StoreCut s t ∧
            t.ctl = { s.ctl with st := .busy (.ringWrite s.ctl.tail new) false } ∧
            t.writer.hand = some (.job { j with phase := .handBack }) ∧ t.stretch[j.chan] = none ∧
            t.letters[take.owner] = some { l with flags := { l.flags with writeFault := true } } ∧
            t.reports = s.reports ++ [{ chan := j.chan, take := j.take, kind := .writeFault true }])) ∧
      (∀ b bytes t take l, s.serving (.headerWrite b bytes) → s.ctl.waiting = [] →
        s.writer.hand = some (.close t true) → s.takes[t] = some take → take.refs ≠ 0 →
        s.letters[take.owner] = some l → ∃ x : State,
          exec (.readyTimeout placed) s = .next x.resumeVerify.emit ∧
          Frame [.store, .dev, .writer, .ctl, .letters, .reports, .takes] s x ∧ OnlySlot take.owner s x ∧
          OnlyTake t s x ∧ x.latched .storeTimeout = true ∧ StoreCut s x ∧ x.ctl = { s.ctl with st := .idle } ∧
          x.writer = { s.writer with hand := none } ∧ x.takes[t] = some { take with closeWrite := false } ∧
          x.letters[take.owner] = some { l with flags := { l.flags with writeFault := true } } ∧
          x.reports = s.reports ++ [{ chan := l.chan, take := t, kind := .lateFault l.number }]) ∧
      (∀ b t take, s.serving (.headerRead b) → s.ctl.waiting = [] →
        s.writer.hand = some (.walk t (.header true)) → s.takes[t] = some take →
        Answers (.readyTimeout placed) s fun x =>
          Frame [.dev, .writer, .ctl, .takes] s x ∧ OnlyTake t s x ∧ x.latched .storeTimeout = true ∧
          x.latched .storeCheck = true ∧ x.ctl = { s.ctl with st := .idle } ∧
          x.takes[t] = some { take with stranded := true } ∧
          x.writer = { s.writer with hand := none, walkList := s.writer.walkList.erase t }) ∧
      ∀ b t first last v, s.serving (.blockRead .verify b t first last) → s.ctl.waiting = [] → s.verify = some v →
        v.todo = [t] → ∃ x : State,
          exec (.readyTimeout placed) s = .next (x.reply v.tag 0x0A .ok
            ({ v with read := v.read + 1, bad := v.bad + 1,
                      firstBad := some (v.firstBad.getD (v.block, .timeout)) } : VerifyCtx).fields).emit ∧
          Frame [.verify, .ctl, .letters, .dev] s x ∧ OnlySlot v.slot s x ∧ x.verify = none ∧
          x.dev = s.dev.set 7 { latched := true, fresh := true } ∧
          ∀ l, s.letters[v.slot] = some l → x.letters[v.slot] = some { l with
            state := v.prior, flags := { l.flags with verifyFailed := true } })

/-- A block that holds a take's header and the records of its own view passes the read check (R125 to R127). -/
def Obligations.WrittenBlocksPass : Prop :=
  ∀ (s : State) (b next : BlockNo) (t : TakeId) (take : Take) (last : Bool) (records : List BlockRecord),
    take.view.length ≤ 500 → readRecords 167 take.view = some records → records.length = take.recs →
    take.recs ≤ 255 → take.blkFirst < 16777216 →
    (if last then next = 0 else s.isUsable next = true ∧ next ≠ b) →
    s.storeBytes (s.blockBase b) (12 + take.view.length) = take.header t next ++ take.view →
    s.blockCheck b t take.blkFirst last = none ∧ s.recordsIn b = records ∧ (s.headerIn b).next = next

/-! ### The letter emitter -/

/-- *HOLD* is held as it is asserted and negated; at a negation, and at the end of a pool cell, the emitter goes on: a
complete cell, or the pending aborted close, begins (R149, R150, R159). No pool cell begins and no letter is picked while
*HOLD* is asserted: nothing but its negation and a full reset takes a part whose *HOLD* is asserted to one that sends
another cell (R141, R150). That a full reset leaves the level of *HOLD* is the model's choice (log 10). -/
def Obligations.HoldStopsThePool : Prop :=
  (∀ s : State,
    (Answers .holdAssert s fun t => Frame [.hold] s t ∧ t.hold = true) ∧
    (s.hold = true → exec .holdNegate s = .next { s with hold := false }.emit) ∧
    (∀ line, s.pool = some line → s.emitter.st = .idle → (s.hold = true ∨ ∀ k : Slot, s.queuedIn k = none) →
      Answers .poolCellEnd s fun t => Frame [.pool] s t ∧ t.pool = none) ∧
    (∀ line k l, s.pool = some line → s.hold = false → s.emitter.st = .sending → s.emitter.slot = some k →
      s.letters[k] = some l → s.emitter.buf.length = 64 → s.emitter.rest ≠ [] →
      Answers .poolCellEnd s fun t =>
        t.pool = some (cellBytes l.chan.number 4 s.emitter.poolSeq 0 64 s.emitter.buf) ∧
        t.emitter.poolSeq = s.emitter.poolSeq + 1 ∧ t.emitter.begun = true ∧
        t.emitter.sentCheck = s.emitter.runCheck ∧ t.emitter.sent = s.emitter.placed) ∧
    ∀ line a, s.pool = some line → s.hold = false → s.emitter.st = .abortPending → s.emitter.abort = some a →
      (∀ k : Slot, s.queuedIn k = none) → Answers .poolCellEnd s fun t =>
        Frame [.pool, .emitter] s t ∧
        t.pool = some (cellBytes a.chan.number 4 s.emitter.poolSeq 0 7
          ([0x60, 2] ++ be24 a.missing ++ wordBytes a.check)) ∧
        t.emitter.st = .idle ∧ t.emitter.abort = none ∧ t.emitter.poolSeq = s.emitter.poolSeq + 1) ∧
  ∀ (i : Instr) (s t : State), exec i s = .next t → s.hold = true → i ≠ .holdNegate →
    t.hold = true ∧ (t.pool = none ∨ t.pool = s.pool) ∧
    ((∃ placed saved, i = .fullReset placed saved) ∨ t.emitter.poolSeq = s.emitter.poolSeq ∧
      ∀ k : Slot, t.emitter.slot = some k → s.emitter.slot = some k)

/-- In IDLE, with *HOLD* negated, the next thing the emitter does is the pick of the winner, if a letter is QUEUED; with
*HOLD* asserted it does nothing. A letter's effective priority is its priority less its aging steps, not below 0; its
stamp's age is how far back the stamp lies from the stamp counter. Of the QUEUED letters the one with the lowest effective
priority number wins, and among equals the one whose stamp is oldest. The winner becomes EMITTING, its stream is set up in
SETTLING from the first entry of its first section, and every other QUEUED letter of a greater number is aged, 8 agings
making one step (R139 to R143). -/
def Obligations.PickIsTheMostUrgent : Prop :=
  (∀ s : State,
    (s.emitter.st = .idle → s.emitStep = if s.hold then none else s.winner.map s.pick) ∧
    (s.winner = none ↔ ∀ (k : Slot) (l : Letter), s.letters[k] = some l → l.state ≠ .queued) ∧
    ∀ (k : Slot) (l : Letter),
      (s.queuedIn k = some l ↔ s.letters[k] = some l ∧ l.state = .queued) ∧
      (∀ p : Fin 4, l.priority = some p →
        (s.steps[k] ≤ p.val → s.effective k l + s.steps[k] = p.val) ∧
        (p.val ≤ s.steps[k] → s.effective k l = 0)) ∧
      ∀ x, l.stamp = some x → s.stampAge l < 2 ^ 32 ∧ x + BitVec.ofNat 32 (s.stampAge l) = s.emitter.stamp) ∧
  ∀ (s : State) (w : Slot) (e age : Nat), s.winner = some (w, e, age) →
    (∃ l, s.queuedIn w = some l ∧ e = s.effective w l ∧ age = s.stampAge l) ∧
    (∀ (k : Slot) (l : Letter), s.queuedIn k = some l →
      e < s.effective k l ∨ (e = s.effective k l ∧ s.stampAge l ≤ age)) ∧
    Frame [.letters, .steps, .emitter] s (s.pick (w, e, age)) ∧
    (∀ l, s.letters[w] = some l →
      (s.pick (w, e, age)).letters[w] = some { l with state := .emitting } ∧
      (s.pick (w, e, age)).steps[w] = s.steps[w] ∧
      ∀ (kind : SegKind) (i : Nat) (first : Segment),
        kind = (if 0 < l.instrFrames then .instruction else .content) → l.map[i]? = some first → first.kind = kind →
        (∀ j x, j < i → l.map[j]? = some x → x.kind ≠ kind) →
        (s.pick (w, e, age)).emitter = { s.emitter with
          st := .settling, slot := some w, kind := kind, entry := i, placedIn := 0, held := none, buf := [],
          stage := .opening, rest := [], restFrames := 0, placed := 0, sent := 0, runCheck := 0xFFFF,
          sentCheck := 0xFFFF, begun := false }) ∧
    ∀ (k : Slot) (l : Letter), k ≠ w → s.letters[k] = some l →
      (l.state = .queued ∧ e < s.effective k l →
        (s.pick (w, e, age)).letters[k] = some { l with aging := if l.aging < 7 then l.aging + 1 else 0 } ∧
        (s.pick (w, e, age)).steps[k] = if l.aging < 7 then s.steps[k] else s.steps[k] + 1) ∧
      (¬ (l.state = .queued ∧ e < s.effective k l) →
        (s.pick (w, e, age)).letters[k] = some l ∧ (s.pick (w, e, age)).steps[k] = s.steps[k])

/-- A block the emitter asked for becomes its held block when it passes the read check, and otherwise STORE_CHECK is
latched and the stream is closed with STORE_FAULT; a read that times out closes it as well, with STORE_TIMEOUT
(R127, R146, R153). -/
def Obligations.EmitterReadsBlocks : Prop :=
  ∀ (s : State) (changed : List Host.Cell) (b : BlockNo) (t : TakeId) (first : Nat) (last : Bool) (k : Slot)
    (l : Letter),
    s.serving (.blockRead .emitter b t first last) → s.ctl.waiting = [] → s.emitter.st = .reading →
    s.emitter.slot = some k → s.letters[k] = some l →
    ((s.changeStore changed).blockCheck b t first last = none → ∃ x : State,
      exec (.emitterBlockReadDone changed) s = .next x.emit ∧
      Frame [.ctl, .emitter] (s.changeStore changed) x ∧ x.ctl = { s.ctl with st := .idle } ∧
      x.emitter = { s.emitter with
        st := .sending
        held := some
          { block := b, take := t, first := first, records := (s.changeStore changed).recordsIn b
            next := ((s.changeStore changed).headerIn b).next, last := last } }) ∧
    ((s.changeStore changed).blockCheck b t first last ≠ none → ∃ x : State,
      exec (.emitterBlockReadDone changed) s = .next x.emit ∧
      Frame [.ctl, .emitter, .dev] (s.changeStore changed) x ∧
      x.dev = s.dev.set 8 { latched := true, fresh := true } ∧
      x.emitter = { s.emitter with
        st := .sending, stage := .closing .storeFault, restFrames := 0
        rest := [0x60, 1] ++ be24 (l.length - s.emitter.placed) ++ wordBytes s.emitter.runCheck }) ∧
    ∀ placed, s.ctl.settings.wait = .onReady → ∃ x : State,
      exec (.readyTimeout placed) s = .next x.emit ∧ Frame [.ctl, .emitter, .dev] s x ∧
      x.dev = s.dev.set 7 { latched := true, fresh := true } ∧
      x.emitter = { s.emitter with
        st := .sending, stage := .closing .storeFault, restFrames := 0
        rest := [0x60, 1] ++ be24 (l.length - s.emitter.placed) ++ wordBytes s.emitter.runCheck }

/-- What the emitter places, one thing at a time: LETTER_OPEN when no take of the letter has a close write
outstanding; the SECTION of the first kind; from the held block the record that holds the frame looked for, a GAP record
with the count of its frames inside the part still to be placed; the next entry of the kind, the CONTENT section behind
the last INSTRUCTION entry, or LETTER_CLOSE COMPLETE. A frame behind the held block makes it read the next block, one of
another take, or before it, the take's first block; a chain that ends before the frame is closed with STORE_FAULT and
STORE_CHECK. The bytes of a record go to the cell buffer as room allows (R143 to R148, R151, R154; a take without a
block is a shortfall, log 21). -/
def Obligations.LetterStreamIsPlaced : Prop :=
  (∀ s : State, (s.emitStep = none → s.emit = s) ∧ ∀ t, s.emitStep = some t → s.emit = State.emitRun 511 t) ∧
  ∀ (s : State) (k : Slot) (l : Letter) (em : Emitter), s.emitter = em → em.slot = some k → s.letters[k] = some l →
    (em.st = .settling →
      ((∃ e ∈ l.map, ∃ take, s.takes[e.take] = some take ∧ take.closeWrite = true) → s.emitStep = none) ∧
      ((∀ e ∈ l.map, ∀ take, s.takes[e.take] = some take → take.closeWrite = false) →
        s.emitStep = some { s with emitter := { em with
          st := .sending, stage := .opening, restFrames := 0
          rest := [0x50] ++ be16 l.number ++ be8 (l.chan.val + 1) ++ be8 l.profile.val
            ++ be8 (l.priority.elim 0 Fin.val)
            ++ be8 (l.flags.unattended.toNat + 2 * l.flags.patched.toNat + 4 * l.flags.lowLevel.toNat
              + 8 * l.flags.writeFault.toNat + 16 * l.flags.verifyFailed.toNat)
            ++ be24 l.instrFrames ++ be24 l.contentFrames } })) ∧
    (em.st = .sending → em.buf.length ≠ 64 → em.rest ≠ [] → ∃ t : State,
      s.emitStep = some t ∧ Frame [.emitter] s t ∧
      t.emitter.buf = em.buf ++ em.rest.take (64 - em.buf.length) ∧
      t.emitter.rest = em.rest.drop (64 - em.buf.length) ∧
      (∀ status, em.stage = .closing status → t.emitter.runCheck = em.runCheck) ∧
      ((∀ status, em.stage ≠ .closing status) →
        t.emitter.runCheck = crc16From em.runCheck (em.rest.take (64 - em.buf.length))) ∧
      (em.rest.length ≤ 64 - em.buf.length → t.emitter.placed = em.placed + em.restFrames ∧
        t.emitter.placedIn = em.placedIn + em.restFrames) ∧
      (64 - em.buf.length < em.rest.length → t.emitter.placed = em.placed ∧ t.emitter.placedIn = em.placedIn)) ∧
    (em.st = .sending → em.buf.length ≠ 64 → em.rest = [] → em.stage = .opening →
      s.emitStep = some { s with emitter := { em with
        stage := .sectionHead, restFrames := 0
        rest := match em.kind with
          | .instruction => [0x40, 0] ++ be24 l.instrFrames
          | .content => [0x40, 1] ++ be24 l.contentFrames } }) ∧
    ∀ seg, em.st = .sending → em.buf.length ≠ 64 → em.rest = [] → em.stage = .sectionHead ∨ em.stage = .frames →
      l.map[em.entry]? = some seg →
      (em.placedIn < seg.count →
        (∀ (h : HeldBlock) (before after : List BlockRecord) (r : BlockRecord) (n : Nat),
          em.held = some h → h.take = seg.take → h.records = before ++ r :: after →
          h.first + recordsFrames before ≤ seg.start + em.placedIn →
          seg.start + em.placedIn < h.first + recordsFrames before + r.frames →
          n = min (h.first + recordsFrames before + r.frames) (seg.start + seg.count) - (seg.start + em.placedIn) →
          s.emitStep = some { s with emitter := { em with
            stage := .frames, restFrames := n
            rest := if byteAt r.bytes 0 = 0x20 ∨ byteAt r.bytes 0 = 0x21 then r.bytes.set 1 (BitVec.ofNat 8 n)
              else r.bytes } }) ∧
        (∀ h : HeldBlock, em.held = some h → h.take = seg.take →
          h.first + recordsFrames h.records ≤ seg.start + em.placedIn →
          (h.last = false → s.storeFree → s.emitStep = some { s with
            emitter := { em with st := .reading }
            ctl := { s.ctl with st := .busy (.blockRead .emitter h.next seg.take (h.first + recordsFrames h.records)
              (decide (s.takes[seg.take].bind Take.current = some h.next))) false } }) ∧
          (h.last = true → s.emitStep = some { s with
            dev := s.dev.set 8 { latched := true, fresh := true }
            emitter := { em with
              stage := .closing .storeFault, restFrames := 0
              rest := [0x60, 1] ++ be24 (l.contentFrames + l.instrFrames - em.placed) ++ wordBytes em.runCheck } })) ∧
        ((∀ h, em.held = some h → h.take ≠ seg.take ∨ seg.start + em.placedIn < h.first) →
          ∀ take b, s.takes[seg.take] = some take → take.first = some b → s.storeFree →
          s.emitStep = some { s with
            emitter := { em with st := .reading }
            ctl := { s.ctl with
              st := .busy (.blockRead .emitter b seg.take 0 (decide (take.current = some b))) false } })) ∧
      (seg.count ≤ em.placedIn →
        (∀ i e, em.entry < i → l.map[i]? = some e → e.kind = em.kind →
          (∀ j x, em.entry < j → j < i → l.map[j]? = some x → x.kind ≠ em.kind) →
          s.emitStep = some { s with emitter := { em with entry := i, placedIn := 0 } }) ∧
        ((∀ j x, em.entry < j → l.map[j]? = some x → x.kind ≠ em.kind) →
          (em.kind = .instruction → 0 < l.contentFrames → ∀ i e, l.map[i]? = some e → e.kind = .content →
            (∀ j x, j < i → l.map[j]? = some x → x.kind ≠ .content) →
            s.emitStep = some { s with emitter := { em with
              kind := .content, entry := i, placedIn := 0, stage := .sectionHead, restFrames := 0
              rest := [0x40, 1] ++ be24 l.contentFrames } }) ∧
          (em.kind = .content ∨ l.contentFrames = 0 → s.emitStep = some { s with emitter := { em with
            stage := .closing .complete, restFrames := 0
            rest := [0x60, 0] ++ be24 0 ++ wordBytes em.runCheck } })))

/-- When the last cell of a letter begins sending, at the end of the cell before it or at a negation of *HOLD*, the
emitter has no letter any more and goes on. A letter closed COMPLETE is freed, with EMITTED offered if its channel is
bound; one closed STORE_FAULT becomes FAULTED and keeps its map, without a cell (R83, R149, R150, R152, R155; that EMITTED is offered before the next
pick is the model's order, log 18). -/
def Obligations.LettersEnd : Prop :=
  ∀ (s : State) (i : Instr) (k : Slot) (l : Letter) (em : Emitter) (status : CloseStatus),
    ((i = .poolCellEnd ∧ s.pool.isSome ∧ s.hold = false) ∨ (i = .holdNegate ∧ s.hold = true ∧ s.pool = none)) →
    s.emitter = em → em.st = .sending → em.slot = some k → s.letters[k] = some l → em.stage = .closing status →
    em.rest = [] → ∃ x : State,
      Frame [.pool, .hold, .emitter, .letters, .takes, .writer, .reports, .steps] s x ∧ OnlySlot k s x ∧
      x.hold = false ∧
      x.pool = some (cellBytes (l.chan.val + 1) 4 em.poolSeq 0 em.buf.length em.buf) ∧
      x.emitter = { em with
        st := .idle, slot := none, held := none, buf := [], restFrames := 0, poolSeq := em.poolSeq + 1
        sentCheck := em.runCheck, sent := em.placed, begun := true } ∧
      (status = .complete → x.letters[k] = none ∧ x.steps = s.steps.set k 0 ∧
        (s.chans[l.chan].state = .unbound → exec i s = .next (State.emitRun 511 x)) ∧
        (s.chans[l.chan].state ≠ .unbound →
          exec i s = .next (State.emitRun 511 (x.offerState l.chan .emitted (x.chanLength l.chan) l.number)))) ∧
      (status = .storeFault → x.letters[k] = some { l with state := .faulted } ∧
        Frame [.pool, .hold, .emitter, .letters] s x ∧ exec i s = .next (State.emitRun 511 x))

/-! ### Management -/

/-- A MGMT cell that is short or fails its check is answered BADCHECK with MGMT_CHECK latched; an intact one is
answered BUSY during a restart, BADCMD for an unknown command, and NOT_READY for any command but IDENT and
STATUS_READ before start-up is complete. Nothing else changes (R163, R164, R183; that MGMT_CHECK is latched before the
REPLY is offered, whose E and W follow it, is the model's order, log 18). -/
def Obligations.MgmtCellsAreTested : Prop :=
  (∀ (i : Instr) (m : Mgmt) (code : Byte) (s : State),
    (∃ early, mgmtRow i = some (m, code, early)) ∨ i = .mgmtUnknown m code → m.used ≠ 64 ∨ m.intact = false →
    Replies i s (if m.used = 0 then 0 else m.tag) (if m.used.toNat < 2 then 0 else code) .badCheck [] fun x =>
      Frame [.handed, .dev] s x ∧ x.dev = s.dev.set 9 { latched := true, fresh := true }) ∧
  (∀ (i : Instr) (m : Mgmt) (code : Byte) (early : Bool) (s : State), mgmtRow i = some (m, code, early) →
    m.used = 64 → m.intact = true →
    (s.restart.isSome → Replies i s m.tag code .busy [] fun x => Frame [.handed] s x) ∧
    (s.restart = none → s.startup.state ≠ .ready → early = false →
      Replies i s m.tag code .notReady [] fun x => Frame [.handed] s x)) ∧
  ∀ (m : Mgmt) (code : Byte) (s : State), m.used = 64 → m.intact = true →
    (s.restart.isSome → Replies (.mgmtUnknown m code) s m.tag code .busy [] fun x => Frame [.handed] s x) ∧
    (s.restart = none → Replies (.mgmtUnknown m code) s m.tag code .badCmd [] fun x => Frame [.handed] s x)

/-- PROFILE_READ of a profile replies with its id, its ten fields as they stand, and the channels bound to it, ascending;
an id outside 0–15 is answered BADARG. Nothing else changes (R35, with the bytes of R192 and R203). -/
def Obligations.ProfileReadReports : Prop :=
  ∀ (m : Mgmt) (s : State) (profile : Byte), m.used = 64 → m.intact = true → s.servesHost →
    (∀ (p : ProfileId) (pf : Profile) (bound : List Chan), profile.toNat = p.val → pf = s.profiles[p] →
      bound = (List.finRange 24).filter (fun c : Chan => decide (s.chans[c].profile = some p)) →
      Replies (.profileRead m profile) s m.tag 0x03 .ok
        ([profile] ++ be8 pf.width ++ be8 pf.hang ++ be16 pf.thr ++ be8 (if pf.mode = .fixed then 0 else 1)
          ++ be8 pf.prio.val ++ be16 pf.g0 ++ be16 pf.target ++ be16 pf.gmin ++ be16 pf.gmax ++ [pf.idle, pf.abandon]
          ++ be8 bound.length ++ bound.flatMap fun c => be8 (c.val + 1))
        fun x => Frame [.handed] s x) ∧
    (16 ≤ profile.toNat → Replies (.profileRead m profile) s m.tag 0x03 .badArg [] fun x => Frame [.handed] s x)

/-- IDENT, STORE_READ, CHANNEL_READ, LETTER_LIST, LETTER_READ and MAP_READ reply, byte by byte, with what they name as it
stands, and change nothing else; CHANNEL_READ clears the new marks it reports; an argument out of range is answered BADARG
(R136, R166, R168, R171 to R173, R187, R203; that the priority and stamp bytes of an OPEN letter, where both are absent,
are 0 is the model's choice, log 35, and that the marks are cleared before the REPLY is offered its reading, log 19). -/
def Obligations.ReadsReport : Prop :=
  ∀ (m : Mgmt) (s : State), m.used = 64 → m.intact = true →
    (s.restart = none → Replies (.ident m) s m.tag 0x01 .ok
      (be16 0x2416 ++ be8 1 ++ be8 s.startup.state.code ++ be8 s.ctl.settings.window.val
        ++ be16 (if s.ctl.st = .unset then 0 else s.ctl.settings.usable) ++ be8 24) fun x => Frame [.handed] s x) ∧
    (s.servesHost →
      Replies (.storeRead m) s m.tag 0x0E .ok
        (be16 s.usableCount ++ be16 s.ctl.free ++ wordBytes s.ctl.settings.mark ++ be8 s.ctl.settings.window.val
          ++ be8 s.ctl.settings.wait.code ++ be8 s.ctl.low.toNat) (fun x => Frame [.handed] s x) ∧
      (∀ channel : Byte,
        (∀ (c : Chan) (ch : Channel) (k : ChanConds) (action priority : Nat), channel.toNat = c.val + 1 →
          ch = s.chans[c] → k = s.chanConds[c] →
          ((ch.pending = .nothing ∧ action = 0 ∧ priority = 0) ∨ (ch.pending = .stop ∧ action = 1 ∧ priority = 0) ∨
            (ch.pending = .autoStop ∧ action = 2 ∧ priority = 0) ∨
            ∃ p : Fin 4, ch.pending = .submit p ∧ action = 3 ∧ priority = p.val) →
          Replies (.channelRead m channel) s m.tag 0x05 .ok
            ([channel] ++ be8 ch.state.code ++ be8 (ch.profile.elim 255 Fin.val) ++ be8 (ch.slot.elim 255 Fin.val)
              ++ be24 ch.cursor ++ be24 (s.chanLength c) ++ be16 (s.chanLetterNo c)
              ++ be8 ((decide (ch.mode = .overwrite)).toNat + 2 * ch.instruct.toNat + 4 * ch.cont.toNat)
              ++ be8 action ++ be8 priority
              ++ be8 (ch.idleTimer.isSome.toNat + 2 * ch.abandonTimer.isSome.toNat)
              ++ be8 (k.cellLoss.latched.toNat + 2 * k.clip.latched.toNat + 4 * k.lowLevel.latched.toNat
                + 16 * k.cellLoss.fresh.toNat + 32 * k.clip.fresh.toNat + 64 * k.lowLevel.fresh.toNat)
              ++ be16 s.ctx[c].g ++ wordBytes (BitVec.ofInt 16 s.ctx[c].p) ++ be8 s.ctx[c].q)
            fun x => Frame [.handed, .chanConds] s x ∧ OnlyChannel c s x ∧
              x.chanConds[c] =
                { cellLoss := { k.cellLoss with fresh := false }
                  clip := { k.clip with fresh := false }
                  lowLevel := { k.lowLevel with fresh := false } }) ∧
        (channel = 0 ∨ 24 < channel.toNat →
          Replies (.channelRead m channel) s m.tag 0x05 .badArg [] fun x => Frame [.handed] s x)) ∧
      (∀ slot : Byte,
        (∀ k : Slot, slot.toNat = k.val →
          (∀ held listed : List Slot,
            held = (List.finRange 48).filter (fun j => decide (k ≤ j) && s.letters[j].isSome) →
            listed = held.take 14 →
            Replies (.letterList m slot) s m.tag 0x07 .ok
              (be8 listed.length
                ++ be8 (if 14 < held.length then listed.getLast?.elim 255 (fun j => j.val + 1) else 255)
                ++ listed.flatMap fun j => be8 j.val ++ be8 (s.letters[j].elim 0 fun l => l.state.code)
                  ++ be16 (s.letters[j].elim 0 Letter.number))
              (fun x => Frame [.handed] s x)) ∧
          (s.letters[k] = none → Replies (.letterRead m slot) s m.tag 0x08 .ok ([slot] ++ List.replicate 21 0)
            (fun x => Frame [.handed] s x)) ∧
          (∀ l, s.letters[k] = some l → Replies (.letterRead m slot) s m.tag 0x08 .ok
            ([slot] ++ be8 l.state.code ++ be16 l.number ++ be8 (l.chan.val + 1) ++ be8 l.profile.val
              ++ be8 (if l.priority.isSome ∧ l.stamp.isSome then 1 else 0) ++ be8 (l.priority.elim 0 Fin.val)
              ++ quadBytes (l.stamp.getD 0) ++ be8 l.aging ++ be8 s.steps[k]
              ++ be8 (l.flags.unattended.toNat + 2 * l.flags.patched.toNat + 4 * l.flags.lowLevel.toNat
                + 8 * l.flags.writeFault.toNat + 16 * l.flags.verifyFailed.toNat)
              ++ be24 l.contentFrames ++ be24 l.instrFrames ++ be8 l.map.length)
            (fun x => Frame [.handed] s x)) ∧
          ∀ index : Byte,
            (∀ map entries : List Segment, index.toNat ≤ 40 → map = (s.letters[k].elim [] Letter.map) →
              entries = (map.drop index.toNat).take 6 →
              Replies (.mapRead m slot index) s m.tag 0x09 .ok
                ([slot] ++ be8 (s.letters[k].elim 0 fun l => l.state.code)
                  ++ be16 (s.letters[k].elim 0 Letter.number) ++ be8 map.length ++ [index] ++ be8 entries.length
                  ++ entries.flatMap fun e => be8 e.take.val ++ be24 e.start ++ be24 e.count
                    ++ be8 (if e.kind = .content then 0 else 1))
                fun x => Frame [.handed] s x) ∧
            (40 < index.toNat → Replies (.mapRead m slot index) s m.tag 0x09 .badArg []
              fun x => Frame [.handed] s x)) ∧
        (48 ≤ slot.toNat →
          Replies (.letterList m slot) s m.tag 0x07 .badArg [] (fun x => Frame [.handed] s x) ∧
          Replies (.letterRead m slot) s m.tag 0x08 .badArg [] (fun x => Frame [.handed] s x) ∧
          ∀ index : Byte, Replies (.mapRead m slot index) s m.tag 0x09 .badArg [] fun x => Frame [.handed] s x)))

/-- PROFILE_WRITE with valid values replaces the whole profile and brings the gain of every channel bound to it into
line; with a value out of range it is refused whole with BADARG. CHANNEL_BIND binds an UNBOUND or IDLE channel to a
profile and sets its gain to g0, and unbinds an IDLE channel with profile 255; in other states it answers STATE, and
out of range BADARG (R9, R29 to R31, R36, R37, R50). -/
def Obligations.ProfilesAndBindings : Prop :=
  (∀ (m : Mgmt) (s : State) (profile : Byte) (fields : Vector Byte 16), m.used = 64 → m.intact = true →
    s.servesHost →
    (∀ (p : ProfileId) (pf : Profile), profile.toNat = p.val → Profile.read fields.toList = some pf →
      Replies (.profileWrite m profile fields) s m.tag 0x02 .ok
        ([profile] ++ chanListBytes ((List.finRange 24).filter fun c : Chan => decide (s.chans[c].profile = some p)))
        fun x =>
          Frame [.handed, .profiles, .ctx] s x ∧ x.profiles = s.profiles.set p pf ∧
          ∀ c : Chan,
            (s.chans[c].profile ≠ some p → x.ctx[c] = s.ctx[c]) ∧
            (s.chans[c].profile = some p → x.ctx[c] = { s.ctx[c] with
              g := if pf.mode = .fixed then pf.g0 else max pf.gmin (min pf.gmax s.ctx[c].g) })) ∧
    (16 ≤ profile.toNat ∨ Profile.read fields.toList = none →
      Replies (.profileWrite m profile fields) s m.tag 0x02 .badArg [] fun x => Frame [.handed] s x)) ∧
  ∀ (m : Mgmt) (s : State) (channel profile : Byte), m.used = 64 → m.intact = true → s.servesHost →
    (channel = 0 ∨ 24 < channel.toNat ∨ (16 ≤ profile.toNat ∧ profile ≠ 255) →
      Replies (.channelBind m channel profile) s m.tag 0x04 .badArg [] fun x => Frame [.handed] s x) ∧
    ∀ c : Chan, channel.toNat = c.val + 1 →
      (∀ p : ProfileId, profile.toNat = p.val →
        (s.chans[c].state = .unbound ∨ s.chans[c].state = .idle →
          Replies (.channelBind m channel profile) s m.tag 0x04 .ok [channel, profile, 1] fun x =>
            Frame [.handed, .chans, .ctx] s x ∧ OnlyChannel c s x ∧
            x.chans[c] = { s.chans[c] with state := .idle, profile := some p } ∧
            x.ctx[c] = { s.ctx[c] with g := s.profiles[p].g0 }) ∧
        (s.chans[c].state ≠ .unbound → s.chans[c].state ≠ .idle →
          Replies (.channelBind m channel profile) s m.tag 0x04 .state [] fun x => Frame [.handed] s x)) ∧
      (profile = 255 →
        (s.chans[c].state = .idle →
          Replies (.channelBind m channel profile) s m.tag 0x04 .ok [channel, 255, 0] fun x =>
            Frame [.handed, .chans, .ctx, .asm] s x ∧ OnlyChannel c s x ∧
            x.chans[c] = { s.chans[c] with state := .unbound, profile := none } ∧
            x.ctx[c] = { g := 256, p := 0, q := 255, low := 0 } ∧
            x.asm[c] = { s.asm[c] with expected := none }) ∧
        (s.chans[c].state ≠ .idle →
          Replies (.channelBind m channel profile) s m.tag 0x04 .state [] fun x => Frame [.handed] s x))

/-- CHANNEL_CLEAR frees the channel's open letter, if it has one, flushes the channel, clears its conditions, expected
sequence and coder context, and keeps its binding and modes (R10, R50, R57, R85, R169, R191). -/
def Obligations.ChannelIsCleared : Prop :=
  ∀ (m : Mgmt) (s : State) (channel : Byte), m.used = 64 → m.intact = true → s.servesHost →
    (channel = 0 ∨ 24 < channel.toNat →
      Replies (.channelClear m channel) s m.tag 0x06 .badArg [] fun x => Frame [.handed] s x) ∧
    ∀ c : Chan, channel.toNat = c.val + 1 → ∃ x : State,
      Frame [.handed, .asm, .stretch, .writer, .frames, .letters, .takes, .reports, .chans, .chanConds, .ctx] s x ∧
      OnlyChannel c s x ∧ (∀ k : Slot, s.chans[c].slot ≠ some k → x.letters[k] = s.letters[k]) ∧
      x.asm[c] = { s.asm[c] with buf := [], drops := 0, expected := none } ∧ x.stretch[c] = none ∧
      x.frames = s.frames.filter (fun f => f.chan ≠ c) ∧ x.chanConds[c].any = false ∧
      (∀ p, s.chans[c].profile = some p → x.ctx[c] = { g := s.profiles[p].g0, p := 0, q := 255, low := 0 }) ∧
      (s.chans[c].profile = none → x.ctx[c] = { g := 256, p := 0, q := 255, low := 0 }) ∧
      (s.chans[c].state = .unbound ∨ s.chans[c].state = .idle →
        x.chans[c] = s.chans[c] ∧ x.letters = s.letters ∧ x.takes = s.takes ∧
        exec (.channelClear m channel) s = .next (x.reply m.tag 0x06 .ok
          ([channel] ++ be8 s.chans[c].state.code ++ be16 (s.chanLetterNo c)))) ∧
      ∀ k l, s.chans[c].state ≠ .unbound → s.chans[c].state ≠ .idle → s.holdsOpen c k l →
        x.letters[k] = none ∧
        x.chans[c] = { s.chans[c] with
          state := .idle, slot := none, cursor := 0, cont := false, pending := .nothing, idleTimer := none,
          abandonTimer := none } ∧
        exec (.channelClear m channel) s = .next (x.reply m.tag 0x06 .ok ([channel, 1] ++ be16 l.number))

/-- LETTER_VERIFY makes a QUEUED or FAULTED letter VERIFYING and asks for the first block of its first take; EMIT_AGAIN
queues a FAULTED letter with a new stamp; DROP frees a QUEUED or FAULTED letter; letters in other states answer
STATE, a VERIFYING one BUSY to DROP. A slot without that letter answers STATE, a slot out of range BADARG, and a
second verify BUSY (R139, R170, R174, R175, R177, R178; the pick follows the reply to EMIT_AGAIN, log 18). -/
def Obligations.LetterCommandsAct : Prop :=
  ∀ (m : Mgmt) (s : State) (slot : Byte) (number : BitVec 16), m.used = 64 → m.intact = true → s.servesHost →
    (48 ≤ slot.toNat →
      Replies (.letterVerify m slot number) s m.tag 0x0A .badArg [] (fun x => Frame [.handed] s x) ∧
      Replies (.emitAgain m slot number) s m.tag 0x0B .badArg [] (fun x => Frame [.handed] s x) ∧
      Replies (.drop m slot number) s m.tag 0x0C .badArg [] fun x => Frame [.handed] s x) ∧
    ∀ k : Slot, slot.toNat = k.val →
      ((∀ l, s.letters[k] = some l → l.number ≠ number.toNat) →
        Replies (.letterVerify m slot number) s m.tag 0x0A .state [] (fun x => Frame [.handed] s x) ∧
        Replies (.emitAgain m slot number) s m.tag 0x0B .state [] (fun x => Frame [.handed] s x) ∧
        Replies (.drop m slot number) s m.tag 0x0C .state [] fun x => Frame [.handed] s x) ∧
      ∀ l, s.letters[k] = some l → l.number = number.toNat →
        (s.verify.isSome →
          Replies (.letterVerify m slot number) s m.tag 0x0A .busy [] fun x => Frame [.handed] s x) ∧
        (l.state = .queued ∨ l.state = .faulted →
          (∀ e rest take b, s.verify = none → l.map = e :: rest → s.takes[e.take] = some take →
            take.first = some b → take.closeWrite = false → s.storeFree →
            Answers (.letterVerify m slot number) s fun x =>
              Frame [.handed, .letters, .verify, .ctl] s x ∧ OnlySlot k s x ∧
              x.letters[k] = some { l with state := .verifying } ∧
              x.ctl = { s.ctl with st := .busy (.blockRead .verify b e.take 0 (1 = take.blocks)) false } ∧
              ∃ v, x.verify = some v ∧ v.slot = k ∧ v.number = l.number ∧ v.prior = l.state ∧ v.tag = m.tag ∧
                v.read = 0 ∧ v.bad = 0) ∧
          (Replies (.drop m slot number) s m.tag 0x0C .ok ([slot] ++ wordBytes number) fun x =>
            Frame [.handed, .letters, .takes, .writer, .reports, .steps] s x ∧ OnlySlot k s x ∧
            x.letters[k] = none ∧ x.steps = s.steps.set k 0)) ∧
        (l.state = .faulted → ∃ x : State,
          exec (.emitAgain m slot number) s =
            .next (x.reply m.tag 0x0B .ok ([slot] ++ wordBytes number)).emit ∧
          Frame [.handed, .letters, .steps, .emitter] s x ∧ OnlySlot k s x ∧ x.steps = s.steps.set k 0 ∧
          x.emitter = { s.emitter with stamp := s.emitter.stamp + 1 } ∧
          x.letters[k] = some { l with state := .queued, stamp := some s.emitter.stamp, aging := 0 }) ∧
        (l.state ≠ .faulted → Replies (.emitAgain m slot number) s m.tag 0x0B .state [] fun x => Frame [.handed] s x) ∧
        (s.verify = none → l.state ≠ .queued → l.state ≠ .faulted →
          Replies (.letterVerify m slot number) s m.tag 0x0A .state [] fun x => Frame [.handed] s x) ∧
        (l.state = .verifying → Replies (.drop m slot number) s m.tag 0x0C .busy [] fun x => Frame [.handed] s x) ∧
        (l.state = .opened ∨ l.state = .emitting →
          Replies (.drop m slot number) s m.tag 0x0C .state [] fun x => Frame [.handed] s x)

/-- A verify's block read: a good block that is not the take's last is counted and the next block asked for. A good last
block, a bad block, with STORE_CHECK latched, and a good last block with which the take's frames are too few or too many,
which is bad with test FRAMES, take the verify to the next take of its list; behind the last take it ends: it answers and
returns the letter to its state before, with VERIFY_FAILED if a block was bad (R175, R176; a pick follows the reply,
log 18). -/
def Obligations.VerifyReadsBlocks : Prop :=
  ∀ (s : State) (changed : List Host.Cell) (b : BlockNo) (t : TakeId) (first : Nat) (last : Bool) (v : VerifyCtx)
    (take : Take) (h : BlockHeader) (n : Nat) (others : List TakeId),
    s.serving (.blockRead .verify b t first last) → s.ctl.waiting = [] → s.verify = some v → v.todo = t :: others →
    v.block = b → v.first = first → s.takes[t] = some take → take.closeWrite = false →
    h = (s.changeStore changed).headerIn b → n = recordsFrames ((s.changeStore changed).recordsIn b) →
    ((s.changeStore changed).blockCheck b t first last = none → last = false →
      Answers (.verifyBlockReadDone changed) s fun x =>
        Frame [.verify, .ctl] (s.changeStore changed) x ∧
        x.verify = some { v with read := v.read + 1, k := v.k + 1, block := h.next, first := first + n, waits := false } ∧
        x.ctl = { s.ctl with
          st := .busy (.blockRead .verify h.next t (first + n) (v.k + 1 = take.blocks)) false }) ∧
    ∀ (outcome : Option BlockTest) (counted : VerifyCtx),
      (((s.changeStore changed).blockCheck b t first last = none ∧ last = true ∧ first + n = take.frames ∧
          outcome = none) ∨
        ((s.changeStore changed).blockCheck b t first last = none ∧ last = true ∧ first + n ≠ take.frames ∧
          outcome = some .frames) ∨
        ((s.changeStore changed).blockCheck b t first last = outcome ∧ outcome ≠ none)) →
      counted = { v with
        read := v.read + 1
        bad := if outcome = none then v.bad else v.bad + 1
        firstBad := match v.firstBad, outcome with
          | some x, _ => some x
          | none, some test => some (b, test)
          | none, none => none } →
      (others = [] → ∃ x : State,
        exec (.verifyBlockReadDone changed) s = .next (x.reply v.tag 0x0A .ok counted.fields).emit ∧
        Frame [.verify, .ctl, .letters, .dev] (s.changeStore changed) x ∧ OnlySlot v.slot s x ∧ x.verify = none ∧
        x.ctl = { s.ctl with st := .idle } ∧
        x.dev = (if outcome = none then s.dev else s.dev.set 8 { latched := true, fresh := true }) ∧
        ∀ l, s.letters[v.slot] = some l → x.letters[v.slot] = some { l with
          state := v.prior
          flags := { l.flags with verifyFailed := l.flags.verifyFailed || decide (0 < counted.bad) } }) ∧
      ∀ u more following next, others = u :: more → s.takes[u] = some following → following.first = some next →
        following.closeWrite = false → Answers (.verifyBlockReadDone changed) s fun x =>
          Frame [.verify, .ctl, .dev] (s.changeStore changed) x ∧
          x.dev = (if outcome = none then s.dev else s.dev.set 8 { latched := true, fresh := true }) ∧
          x.verify = some { counted with todo := others, k := 1, block := next, first := 0, waits := false } ∧
          x.ctl = { s.ctl with st := .busy (.blockRead .verify next u 0 (1 = following.blocks)) false }

/-- BLOCK_PEEK asks for a read of a block in the window at an offset that is a multiple of 48 below 500; the read's end
replies the bytes there, and a timeout replies FAULT (R128, R179; a block
number is taken modulo the window, log 8). -/
def Obligations.PeekReadsBytes : Prop :=
  (∀ (m : Mgmt) (s : State) (block offset : BitVec 16), m.used = 64 → m.intact = true → s.servesHost →
    (s.ctl.settings.blocks ≤ block.toNat ∨ offset.toNat % 48 ≠ 0 ∨ 500 ≤ offset.toNat →
      Replies (.blockPeek m block offset) s m.tag 0x0D .badArg [] fun x => Frame [.handed] s x) ∧
    (block.toNat < s.ctl.settings.blocks → offset.toNat % 48 = 0 → offset.toNat < 500 →
      (s.peek.isSome → Replies (.blockPeek m block offset) s m.tag 0x0D .busy [] fun x => Frame [.handed] s x) ∧
      (s.peek = none → s.storeFree → Answers (.blockPeek m block offset) s fun x =>
        Frame [.handed, .peek, .ctl] s x ∧ x.peek = some { tag := m.tag, block := block, offset := offset } ∧
        x.ctl = { s.ctl with st := .busy (.peekRead block offset) false }))) ∧
  ∀ (s : State) (p : PeekCtx) (bytes : List Byte), s.serving (.peekRead p.block p.offset) → s.ctl.waiting = [] →
    s.peek = some p →
    (∀ changed, bytes = (s.changeStore changed).storeBytes
        (p.block.toNat % s.ctl.settings.blocks * 512 + p.offset.toNat) (min 48 (512 - p.offset.toNat)) ++
          List.replicate (48 - min 48 (512 - p.offset.toNat)) 0 ++
          (s.changeStore changed).storeBytes (p.block.toNat % s.ctl.settings.blocks * 512 + 10) 2 →
      ∃ x : State, exec (.peekReadDone changed) s =
          .next (x.reply p.tag 0x0D .ok (wordBytes p.block ++ wordBytes p.offset ++ bytes)) ∧
        Frame [.peek, .ctl] (s.changeStore changed) x ∧ x.peek = none ∧ x.ctl = { s.ctl with st := .idle }) ∧
    ∀ placed, s.ctl.settings.wait = .onReady → ∃ x : State, exec (.readyTimeout placed) s =
        .next (x.reply p.tag 0x0D .fault (wordBytes p.block ++ wordBytes p.offset)) ∧
      Frame [.peek, .ctl, .dev] s x ∧ x.peek = none ∧ x.dev = s.dev.set 7 { latched := true, fresh := true }

/-- STATUS_READ reports, byte by byte, the device conditions with CHANNEL_COND as derived, the masks, E and W, and the
listed channels' conditions, and clears the new marks reported; STATUS_CLEAR clears the conditions it names and reports
what stands after it and what was cleared unseen; MASK_WRITE sets both masks, positions 6 and 7 of the error mask held at 0
(R180, R181, R186 to R190, R203; that the marks are cleared before a drop of the reply itself can latch RETURN_OVERFLOW is
the model's reading, log 19; that bytes 8 and 11 are 0 where channel 0 names no channel is its choice, log 36). -/
def Obligations.ConditionsAreReadAndCleared : Prop :=
  ∀ (m : Mgmt) (s : State) (byte : ChanConds → Byte), m.used = 64 → m.intact = true → s.restart = none →
    (∀ k : ChanConds, byte k = BitVec.ofNat 8 (k.cellLoss.latched.toNat + 2 * k.clip.latched.toNat
      + 4 * k.lowLevel.latched.toNat + 16 * k.cellLoss.fresh.toNat + 32 * k.clip.fresh.toNat
      + 64 * k.lowLevel.fresh.toNat)) →
    s.errorFlag = ([(0, .syncLost), (1, .intakeOverflow), (2, .storeFull), (3, .storeTimeout), (4, .storeCheck),
      (5, .configWriteFail)] : List (Nat × DevCond)).any (fun x => s.errMask.getLsbD x.1 && s.latched x.2) ∧
    s.warningFlag = (([(0, .headerErr), (1, .misroute), (2, .returnOverflow), (3, .storeLow), (4, .mgmtCheck),
      (5, .configADefault), (6, .configBDefault)] : List (Nat × DevCond)).any
        (fun x => s.warnMask.getLsbD x.1 && s.latched x.2) ||
      (s.warnMask.getLsbD 7 && (List.finRange 24).any fun c : Chan => s.chanConds[c].any)) ∧
    (∀ (states marks : BitVec 16) (listed : List Chan),
      (∀ i : Fin 13, states.getLsbD i = s.dev[i].latched ∧ marks.getLsbD i = s.dev[i].fresh) →
      (states.getLsbD 13 = true ↔ ∃ c : Chan, s.chanConds[c].any = true) →
      (marks.getLsbD 13 = true ↔ ∃ c : Chan, s.chanConds[c].anyFresh = true) →
      states.getLsbD 14 = false → states.getLsbD 15 = false → marks.getLsbD 14 = false → marks.getLsbD 15 = false →
      listed = (List.finRange 24).filter (fun c : Chan => s.chanConds[c].any) →
      Replies (.statusRead m) s m.tag 0x0F .ok
        (wordBytes states ++ wordBytes marks ++ [s.errMask, s.warnMask]
          ++ be8 (2 * s.errorFlag.toNat + s.warningFlag.toNat) ++ be8 listed.length
          ++ listed.flatMap fun c => be8 (c.val + 1) ++ [byte s.chanConds[c]]) fun x =>
        Frame [.handed, .dev, .chanConds] s x ∧
        (∀ i : Fin 13, x.dev[i] = { s.dev[i] with fresh := false }) ∧
        ∀ c : Chan, (s.chanConds[c].any = false → x.chanConds[c] = s.chanConds[c]) ∧
          (s.chanConds[c].any = true → x.chanConds[c] =
            { cellLoss := { s.chanConds[c].cellLoss with fresh := false }
              clip := { s.chanConds[c].clip with fresh := false }
              lowLevel := { s.chanConds[c].lowLevel with fresh := false } })) ∧
    (s.startup.state = .ready →
      (∀ (device : BitVec 16) (channel conditions : Byte),
        (24 < channel.toNat →
          Replies (.statusClear m device channel conditions) s m.tag 0x10 .badArg [] fun x => Frame [.handed] s x) ∧
        ∀ (after : Vector ChanConds 24) (states marks unseen : BitVec 16) (left gone : Byte), channel.toNat ≤ 24 →
          (∀ c : Chan,
            (channel.toNat ≠ c.val + 1 → after[c] = s.chanConds[c]) ∧
            (channel.toNat = c.val + 1 → after[c] =
              { cellLoss := if conditions.getLsbD 0 then .clear else s.chanConds[c].cellLoss
                clip := if conditions.getLsbD 1 then .clear else s.chanConds[c].clip
                lowLevel := if conditions.getLsbD 2 then .clear else s.chanConds[c].lowLevel })) →
          (∀ i : Fin 13, states.getLsbD i = (s.dev[i].latched && !device.getLsbD i) ∧
            marks.getLsbD i = (s.dev[i].fresh && !device.getLsbD i) ∧
            unseen.getLsbD i = (device.getLsbD i && s.dev[i].latched && s.dev[i].fresh)) →
          (states.getLsbD 13 = true ↔ ∃ c : Chan, after[c].any = true) →
          (marks.getLsbD 13 = true ↔ ∃ c : Chan, after[c].anyFresh = true) → unseen.getLsbD 13 = false →
          (∀ i, 14 ≤ i → states.getLsbD i = false ∧ marks.getLsbD i = false ∧ unseen.getLsbD i = false) →
          (channel = 0 → left = 0 ∧ gone = 0) →
          (∀ c : Chan, channel.toNat = c.val + 1 → left = byte after[c] ∧
            gone = BitVec.ofNat 8
              ((conditions.getLsbD 0 && s.chanConds[c].cellLoss.latched && s.chanConds[c].cellLoss.fresh).toNat
              + 2 * (conditions.getLsbD 1 && s.chanConds[c].clip.latched && s.chanConds[c].clip.fresh).toNat
              + 4 * (conditions.getLsbD 2 && s.chanConds[c].lowLevel.latched && s.chanConds[c].lowLevel.fresh).toNat)) →
          Replies (.statusClear m device channel conditions) s m.tag 0x10 .ok
            (wordBytes states ++ wordBytes marks ++ [channel, left] ++ wordBytes unseen ++ [gone]) fun x =>
            Frame [.handed, .dev, .chanConds] s x ∧
            (∀ i : Fin 13, x.dev[i] = if device.getLsbD i then { latched := false, fresh := false }
              else { s.dev[i] with fresh := false }) ∧
            ∀ c : Chan,
              (channel.toNat ≠ c.val + 1 → x.chanConds[c] = s.chanConds[c]) ∧
              (channel.toNat = c.val + 1 → x.chanConds[c] =
                { cellLoss := { after[c].cellLoss with fresh := false }
                  clip := { after[c].clip with fresh := false }
                  lowLevel := { after[c].lowLevel with fresh := false } })) ∧
      ∀ error warning : Byte, Replies (.maskWrite m error warning) s m.tag 0x11 .ok [error &&& 0x3F, warning] fun x =>
        Frame [.handed, .errMask, .warnMask] s x ∧ x.errMask = error &&& 0x3F ∧ x.warnMask = warning)

/-- CONFIG_SAVE takes a copy of both areas in 19 pieces, or is BUSY; each piece's transfer, acknowledge and timeout
carry it on, end it OK after the last piece, or end it with FAULT and CONFIG_WRITE_FAIL (R182, R197, R198; that the
condition is latched before the REPLY is offered, whose E follows it, is the model's order, log 18). -/
def Obligations.SaveWritesPieces : Prop :=
  (∀ (m : Mgmt) (s : State), m.used = 64 → m.intact = true → s.servesHost →
    (s.save.isSome → Replies (.configSave m) s m.tag 0x12 .busy [] fun x => Frame [.handed] s x) ∧
    (s.save = none → Answers (.configSave m) s fun x =>
      Frame [.handed, .save] s x ∧ ∃ v, x.save = some v ∧ v.tag = m.tag ∧ v.polling = false ∧
        v.pieces.map (fun p => p.2.length) = List.replicate 18 16 ++ [10] ∧
        (v.pieces.flatMap Prod.snd) = s.areaA.bytes ++ s.areaB.bytes ∧
        v.pieces.map Prod.fst = 0 :: (List.range 18).map fun i => 0x40 + 16 * i)) ∧
  ∀ (s : State) (v : SaveCtx) (piece : Nat × List Byte) (rest : List (Nat × List Byte)) (placed : List Bool),
    s.save = some v → v.pieces = piece :: rest →
    (v.polling = false → Answers (.configPieceTransferEnd true placed) s fun t =>
      Frame [.save] s t ∧ t.save = some { v with polling := true }) ∧
    (∀ i, (i = .configPieceTransferEnd false placed ∧ v.polling = false) ∨
        (i = .configWriteTimeout placed ∧ v.polling = true) →
      Replies i s v.tag 0x12 .fault [] fun x =>
        Frame [.save, .cfgMem, .dev] s x ∧ x.save = none ∧ ConfigCut s x ∧
        x.dev = s.dev.set 12 { latched := true, fresh := true }) ∧
    (v.polling = true → ∃ x : State, Frame [.save, .cfgMem] s x ∧
      (∀ k, ∀ h : k < piece.2.length, x.configByte (piece.1 + k) = piece.2[k]) ∧
      (∀ a, a < piece.1 ∨ piece.1 + piece.2.length ≤ a → x.configByte a = s.configByte a) ∧
      (rest ≠ [] → exec .configWriteAck s = .next x ∧ x.save = some { v with pieces := rest, polling := false }) ∧
      (rest = [] → x.save = none ∧ exec .configWriteAck s = .next (x.reply v.tag 0x12 .ok [])))

/-- RESTART, in one event: every letter and take is FREE, every queue of audio empty, every bound channel IDLE on its
profile with its gain at g0, every condition clear; profiles, masks, letter counter, store settings, the return path
and the pool sequence are kept; the ring rebuild begins when no access is in progress (R10, R84, R115, R123, R158,
R160, R183, R191). During a save it is BUSY. That an UNBOUND channel keeps its edit mode and instruct flag is the model's
choice (log 33). -/
def Obligations.RestartClearsThePart : Prop :=
  ∀ (m : Mgmt) (s : State), m.used = 64 → m.intact = true → s.servesHost →
    (s.save.isSome → Replies (.restart m) s m.tag 0x13 .busy [] fun x => Frame [.handed] s x) ∧
    (s.save = none → ∃ x : State, exec (.restart m) s = .next x.emit ∧
      Frame [.handed, .asm, .frames, .coder, .ctx, .chans, .letters, .takes, .writer, .stretch, .reports, .ctl,
        .emitter, .steps, .dev, .chanConds, .verify, .peek, .restart] s x ∧
      x.restart = some m.tag ∧ x.frames = [] ∧ x.coder = .idle ∧
      (∀ k : Slot, x.letters[k] = none ∧ x.steps[k] = 0) ∧ (∀ t : TakeId, x.takes[t] = none) ∧
      x.writer.hand = none ∧ x.writer.closeQueue = [] ∧ x.writer.gapTurns = [] ∧ x.writer.walkList = [] ∧
      (∀ c : Chan, x.asm[c].buf = [] ∧ x.asm[c].expected = none ∧ x.asm[c].drops = 0 ∧ x.stretch[c] = none ∧
        x.chanConds[c].any = false ∧
        (s.chans[c].state = .unbound → x.chans[c] = s.chans[c]) ∧
        (s.chans[c].state ≠ .unbound → x.chans[c] =
          { state := .idle, profile := s.chans[c].profile, slot := none, cursor := 0, mode := .insert,
            instruct := false, cont := false, pending := .nothing, idleTimer := none, abandonTimer := none }) ∧
        (∀ p, s.chans[c].profile = some p → x.ctx[c] = { g := s.profiles[p].g0, p := 0, q := 255, low := 0 }) ∧
        (s.chans[c].profile = none → x.ctx[c] = { g := 256, p := 0, q := 255, low := 0 })) ∧
      (∀ d : DevCond, x.latched d = false) ∧ x.verify = none ∧ x.peek = none ∧
      x.ctl.waiting = [] ∧ x.ctl.head = 0 ∧ x.ctl.tail = 0 ∧ x.ctl.free = 0 ∧ x.ctl.settings = s.ctl.settings ∧
      (s.ctl.st = .idle → x.ctl.st = .rebuilding 0) ∧
      (∀ a d, s.ctl.st = .busy a d → x.ctl.st = .busy a true) ∧
      x.emitter.poolSeq = s.emitter.poolSeq ∧ x.emitter.slot = none ∧ x.emitter.stamp = 0 ∧
      (s.emitter.st ≠ .abortPending → s.emitter.begun = false → x.emitter.st = .idle ∧ x.emitter.abort = none) ∧
      (∀ k l, s.emitter.st ≠ .abortPending → s.emitter.begun = true → s.emitter.slot = some k →
        s.letters[k] = some l → x.emitter.st = .abortPending ∧ x.emitter.abort =
          some { chan := l.chan, missing := l.length - s.emitter.sent, check := s.emitter.sentCheck }))

/-! ### What every command keeps -/

/-- Start-up moves only from POWER_ON to CONFIG_LOAD, STORE_INIT and READY, each by its own event, and only a full
reset takes it back. A LATCHED device condition stays LATCHED until a STATUS_CLEAR that names it, a RESTART or a full
reset; the masks change only by MASK_WRITE, at the settling of area A and by a full reset; the store's settings only at
the settling of area B, when CONFIG_LOAD ends, and by a full reset (R116, R120, R181, R184, R188, R189, R191, R193,
R195). -/
def Obligations.StateMovesWhereSaid : Prop :=
  (∀ (i : Instr) (s t : State), exec i s = .next t →
    t.startup.state = s.startup.state ∨
    (∃ placed saved, i = .fullReset placed saved ∧ t.startup.state = .powerOn) ∨
    (i = .busReleaseEnd ∧ s.startup.state = .powerOn ∧ t.startup.state = .configLoad) ∨
    (∃ acked changed, i = .configReadAttemptEnd acked changed ∧ s.startup.state = .configLoad ∧
      s.startup.area = .b ∧ t.startup.state = .storeInit ∧ t.ctl.st = .rebuilding 0) ∨
    (i = .rebuildWriteDone ∧ s.startup.state = .storeInit ∧ t.startup.state = .ready)) ∧
  ∀ (i : Instr) (s t : State), exec i s = .next t → (∀ placed saved, i ≠ .fullReset placed saved) →
    (∀ d : DevCond, s.latched d = true → t.latched d = true ∨
      (∃ m device channel conditions, i = .statusClear m device channel conditions ∧ device.getLsbD d.index.val) ∨
      ∃ m, i = .restart m) ∧
    ((t.errMask = s.errMask ∧ t.warnMask = s.warnMask) ∨ (∃ m error warning, i = .maskWrite m error warning) ∨
      ∃ acked changed, i = .configReadAttemptEnd acked changed ∧ s.startup.state = .configLoad ∧
        s.startup.area = .a) ∧
    (t.ctl.settings = s.ctl.settings ∨
      ∃ acked changed, i = .configReadAttemptEnd acked changed ∧ s.startup.state = .configLoad ∧
        s.startup.area = .b) ∧
    (s.ctl.settings.wait ≠ .onReady → t.latched .storeTimeout = true → s.latched .storeTimeout = true)

/-- Every step keeps both memories in their canonical form, the counts within their bounds (R41, R42, R47, R51, R54, R148,
R194), new marks on LATCHED conditions only, and the unused positions of the error mask at 0 (R184, R189). -/
def Obligations.StepKeepsMemoriesAndCounts : Prop :=
  (∀ s t : State, MemoriesCanonical s → step s = .next t → MemoriesCanonical t) ∧
  (∀ s t : State, CountsBounded s → step s = .next t → CountsBounded t) ∧
  ∀ s t : State, ConditionsSound s → step s = .next t → ConditionsSound t

/-- Every step keeps every channel record as R58's table has it, and law L8: a bound channel's gain within its
profile's bounds (R6, R9, R22, R27, R58). -/
def Obligations.StepKeepsChannelsAndGains : Prop :=
  ∀ s t : State, ChannelsDisciplined s → GainsBounded s → step s = .next t → ChannelsDisciplined t ∧ GainsBounded t

/-- Every step keeps who holds which letter (laws L9 and L11; R104, R138, R141, R174). -/
def Obligations.StepKeepsLettersHeld : Prop :=
  ∀ s t : State, ChannelsDisciplined s → LettersHeld s → step s = .next t → LettersHeld t

/-- Every step keeps laws L1 and L2 while the laws hold: the letters' sums equal to their maps and at most 262,143 frames,
the maps within 40 entries, and no entry without frames but an open segment (R97, R108, R110). -/
def Obligations.StepKeepsLetterSums : Prop := ∀ s t : State, LawsHold s → step s = .next t → LetterSums t

/-- Every step keeps law L3 while the laws hold: each take's reference count is the number of map entries that name it,
every entry lies in its take's owning slot, and the walk list holds the CLOSED takes that nothing names (R88, R91). -/
def Obligations.StepKeepsReferences : Prop := ∀ s t : State, LawsHold s → step s = .next t → ReferencesCounted t

/-- Every step keeps law L10 while the laws hold: each WRITING take is named by exactly one map entry, the open segment
of the one channel writing it; a channel has at most one (R53, R60, R94). -/
def Obligations.StepKeepsWritingTakes : Prop := ∀ s t : State, LawsHold s → step s = .next t → WritingTakesNamed t

/-- Every step keeps law L4 while the laws hold: no frame of any take is named by two map entries, and every entry names
frames its take holds (R108). -/
def Obligations.StepKeepsFramesApart : Prop := ∀ s t : State, LawsHold s → step s = .next t → FramesApart t

/-- Every step keeps law L6 while the laws hold: a cursor lies between 0 and its letter's length, and at the end of the
open segment while a take is being written (R59, R109, R110). -/
def Obligations.StepKeepsCursors : Prop := ∀ s t : State, LawsHold s → step s = .next t → CursorsHeld t

/-- Every step keeps law L5: while the ring is in use, the free count and the blocks chained to takes, one handed over
included, make up the usable count; and the free ring lies between head and tail, every usable block once in it, once in the
chain of one take, or handed over, as long as no cause outside the part changes the store's bytes (log 6). The take writer waits for one
access, that of what it has in hand (R122, R129 to R134). -/
def Obligations.StepKeepsBlocks : Prop :=
  (∀ s t : State, WriterInStep s → BlocksCounted s → step s = .next t → WriterInStep t ∧ BlocksCounted t) ∧
  ∀ (s t : State), (∀ i rest, s.pending = i :: rest → storeChanges i = []) →
    WriterInStep s → BlocksInPlace s → step s = .next t → BlocksInPlace t

/-- Every step keeps the letter numbers distinct and in 1–65535 (law L12, R107). -/
def Obligations.StepKeepsNumbers : Prop := ∀ s t : State, NumbersDistinct s → step s = .next t → NumbersDistinct t

end
end

