-- ==== Sys2Proof/Laws/State.lean ====
section
/-!
SUPPORT. One lemma for every field and every update of State, each true by rfl.
-/

namespace Sys2Proof.Machine

variable (s : State)

/-! ### latch -/

@[simp] theorem State.latch_pending (d : DevCond) : (s.latch d).pending = s.pending := rfl
@[simp] theorem State.latch_handed (d : DevCond) : (s.latch d).handed = s.handed := rfl
@[simp] theorem State.latch_startup (d : DevCond) : (s.latch d).startup = s.startup := rfl
@[simp] theorem State.latch_cfgMem (d : DevCond) : (s.latch d).cfgMem = s.cfgMem := rfl
@[simp] theorem State.latch_port (d : DevCond) : (s.latch d).port = s.port := rfl
@[simp] theorem State.latch_ret (d : DevCond) : (s.latch d).ret = s.ret := rfl
@[simp] theorem State.latch_asm (d : DevCond) : (s.latch d).asm = s.asm := rfl
@[simp] theorem State.latch_frames (d : DevCond) : (s.latch d).frames = s.frames := rfl
@[simp] theorem State.latch_coder (d : DevCond) : (s.latch d).coder = s.coder := rfl
@[simp] theorem State.latch_ctx (d : DevCond) : (s.latch d).ctx = s.ctx := rfl
@[simp] theorem State.latch_profiles (d : DevCond) : (s.latch d).profiles = s.profiles := rfl
@[simp] theorem State.latch_chans (d : DevCond) : (s.latch d).chans = s.chans := rfl
@[simp] theorem State.latch_letters (d : DevCond) : (s.latch d).letters = s.letters := rfl
@[simp] theorem State.latch_letterNo (d : DevCond) : (s.latch d).letterNo = s.letterNo := rfl
@[simp] theorem State.latch_takes (d : DevCond) : (s.latch d).takes = s.takes := rfl
@[simp] theorem State.latch_writer (d : DevCond) : (s.latch d).writer = s.writer := rfl
@[simp] theorem State.latch_stretch (d : DevCond) : (s.latch d).stretch = s.stretch := rfl
@[simp] theorem State.latch_reports (d : DevCond) : (s.latch d).reports = s.reports := rfl
@[simp] theorem State.latch_store (d : DevCond) : (s.latch d).store = s.store := rfl
@[simp] theorem State.latch_ctl (d : DevCond) : (s.latch d).ctl = s.ctl := rfl
@[simp] theorem State.latch_emitter (d : DevCond) : (s.latch d).emitter = s.emitter := rfl
@[simp] theorem State.latch_steps (d : DevCond) : (s.latch d).steps = s.steps := rfl
@[simp] theorem State.latch_pool (d : DevCond) : (s.latch d).pool = s.pool := rfl
@[simp] theorem State.latch_hold (d : DevCond) : (s.latch d).hold = s.hold := rfl
@[simp] theorem State.latch_dev (d : DevCond) : (s.latch d).dev = s.dev.set d.index .set := rfl
@[simp] theorem State.latch_chanConds (d : DevCond) : (s.latch d).chanConds = s.chanConds := rfl
@[simp] theorem State.latch_errMask (d : DevCond) : (s.latch d).errMask = s.errMask := rfl
@[simp] theorem State.latch_warnMask (d : DevCond) : (s.latch d).warnMask = s.warnMask := rfl
@[simp] theorem State.latch_verify (d : DevCond) : (s.latch d).verify = s.verify := rfl
@[simp] theorem State.latch_peek (d : DevCond) : (s.latch d).peek = s.peek := rfl
@[simp] theorem State.latch_save (d : DevCond) : (s.latch d).save = s.save := rfl
@[simp] theorem State.latch_restart (d : DevCond) : (s.latch d).restart = s.restart := rfl

/-! ### latchCellLoss -/

@[simp] theorem State.latchCellLoss_pending (c : Chan) : (s.latchCellLoss c).pending = s.pending := rfl
@[simp] theorem State.latchCellLoss_handed (c : Chan) : (s.latchCellLoss c).handed = s.handed := rfl
@[simp] theorem State.latchCellLoss_startup (c : Chan) : (s.latchCellLoss c).startup = s.startup := rfl
@[simp] theorem State.latchCellLoss_cfgMem (c : Chan) : (s.latchCellLoss c).cfgMem = s.cfgMem := rfl
@[simp] theorem State.latchCellLoss_port (c : Chan) : (s.latchCellLoss c).port = s.port := rfl
@[simp] theorem State.latchCellLoss_ret (c : Chan) : (s.latchCellLoss c).ret = s.ret := rfl
@[simp] theorem State.latchCellLoss_asm (c : Chan) : (s.latchCellLoss c).asm = s.asm := rfl
@[simp] theorem State.latchCellLoss_frames (c : Chan) : (s.latchCellLoss c).frames = s.frames := rfl
@[simp] theorem State.latchCellLoss_coder (c : Chan) : (s.latchCellLoss c).coder = s.coder := rfl
@[simp] theorem State.latchCellLoss_ctx (c : Chan) : (s.latchCellLoss c).ctx = s.ctx := rfl
@[simp] theorem State.latchCellLoss_profiles (c : Chan) : (s.latchCellLoss c).profiles = s.profiles := rfl
@[simp] theorem State.latchCellLoss_chans (c : Chan) : (s.latchCellLoss c).chans = s.chans := rfl
@[simp] theorem State.latchCellLoss_letters (c : Chan) : (s.latchCellLoss c).letters = s.letters := rfl
@[simp] theorem State.latchCellLoss_letterNo (c : Chan) : (s.latchCellLoss c).letterNo = s.letterNo := rfl
@[simp] theorem State.latchCellLoss_takes (c : Chan) : (s.latchCellLoss c).takes = s.takes := rfl
@[simp] theorem State.latchCellLoss_writer (c : Chan) : (s.latchCellLoss c).writer = s.writer := rfl
@[simp] theorem State.latchCellLoss_stretch (c : Chan) : (s.latchCellLoss c).stretch = s.stretch := rfl
@[simp] theorem State.latchCellLoss_reports (c : Chan) : (s.latchCellLoss c).reports = s.reports := rfl
@[simp] theorem State.latchCellLoss_store (c : Chan) : (s.latchCellLoss c).store = s.store := rfl
@[simp] theorem State.latchCellLoss_ctl (c : Chan) : (s.latchCellLoss c).ctl = s.ctl := rfl
@[simp] theorem State.latchCellLoss_emitter (c : Chan) : (s.latchCellLoss c).emitter = s.emitter := rfl
@[simp] theorem State.latchCellLoss_steps (c : Chan) : (s.latchCellLoss c).steps = s.steps := rfl
@[simp] theorem State.latchCellLoss_pool (c : Chan) : (s.latchCellLoss c).pool = s.pool := rfl
@[simp] theorem State.latchCellLoss_hold (c : Chan) : (s.latchCellLoss c).hold = s.hold := rfl
@[simp] theorem State.latchCellLoss_dev (c : Chan) : (s.latchCellLoss c).dev = s.dev := rfl
@[simp] theorem State.latchCellLoss_chanConds (c : Chan) : (s.latchCellLoss c).chanConds = s.chanConds.set c { s.chanConds[c] with cellLoss := .set } := rfl
@[simp] theorem State.latchCellLoss_errMask (c : Chan) : (s.latchCellLoss c).errMask = s.errMask := rfl
@[simp] theorem State.latchCellLoss_warnMask (c : Chan) : (s.latchCellLoss c).warnMask = s.warnMask := rfl
@[simp] theorem State.latchCellLoss_verify (c : Chan) : (s.latchCellLoss c).verify = s.verify := rfl
@[simp] theorem State.latchCellLoss_peek (c : Chan) : (s.latchCellLoss c).peek = s.peek := rfl
@[simp] theorem State.latchCellLoss_save (c : Chan) : (s.latchCellLoss c).save = s.save := rfl
@[simp] theorem State.latchCellLoss_restart (c : Chan) : (s.latchCellLoss c).restart = s.restart := rfl

/-! ### latchClip -/

@[simp] theorem State.latchClip_pending (c : Chan) : (s.latchClip c).pending = s.pending := rfl
@[simp] theorem State.latchClip_handed (c : Chan) : (s.latchClip c).handed = s.handed := rfl
@[simp] theorem State.latchClip_startup (c : Chan) : (s.latchClip c).startup = s.startup := rfl
@[simp] theorem State.latchClip_cfgMem (c : Chan) : (s.latchClip c).cfgMem = s.cfgMem := rfl
@[simp] theorem State.latchClip_port (c : Chan) : (s.latchClip c).port = s.port := rfl
@[simp] theorem State.latchClip_ret (c : Chan) : (s.latchClip c).ret = s.ret := rfl
@[simp] theorem State.latchClip_asm (c : Chan) : (s.latchClip c).asm = s.asm := rfl
@[simp] theorem State.latchClip_frames (c : Chan) : (s.latchClip c).frames = s.frames := rfl
@[simp] theorem State.latchClip_coder (c : Chan) : (s.latchClip c).coder = s.coder := rfl
@[simp] theorem State.latchClip_ctx (c : Chan) : (s.latchClip c).ctx = s.ctx := rfl
@[simp] theorem State.latchClip_profiles (c : Chan) : (s.latchClip c).profiles = s.profiles := rfl
@[simp] theorem State.latchClip_chans (c : Chan) : (s.latchClip c).chans = s.chans := rfl
@[simp] theorem State.latchClip_letters (c : Chan) : (s.latchClip c).letters = s.letters := rfl
@[simp] theorem State.latchClip_letterNo (c : Chan) : (s.latchClip c).letterNo = s.letterNo := rfl
@[simp] theorem State.latchClip_takes (c : Chan) : (s.latchClip c).takes = s.takes := rfl
@[simp] theorem State.latchClip_writer (c : Chan) : (s.latchClip c).writer = s.writer := rfl
@[simp] theorem State.latchClip_stretch (c : Chan) : (s.latchClip c).stretch = s.stretch := rfl
@[simp] theorem State.latchClip_reports (c : Chan) : (s.latchClip c).reports = s.reports := rfl
@[simp] theorem State.latchClip_store (c : Chan) : (s.latchClip c).store = s.store := rfl
@[simp] theorem State.latchClip_ctl (c : Chan) : (s.latchClip c).ctl = s.ctl := rfl
@[simp] theorem State.latchClip_emitter (c : Chan) : (s.latchClip c).emitter = s.emitter := rfl
@[simp] theorem State.latchClip_steps (c : Chan) : (s.latchClip c).steps = s.steps := rfl
@[simp] theorem State.latchClip_pool (c : Chan) : (s.latchClip c).pool = s.pool := rfl
@[simp] theorem State.latchClip_hold (c : Chan) : (s.latchClip c).hold = s.hold := rfl
@[simp] theorem State.latchClip_dev (c : Chan) : (s.latchClip c).dev = s.dev := rfl
@[simp] theorem State.latchClip_chanConds (c : Chan) : (s.latchClip c).chanConds = s.chanConds.set c { s.chanConds[c] with clip := .set } := rfl
@[simp] theorem State.latchClip_errMask (c : Chan) : (s.latchClip c).errMask = s.errMask := rfl
@[simp] theorem State.latchClip_warnMask (c : Chan) : (s.latchClip c).warnMask = s.warnMask := rfl
@[simp] theorem State.latchClip_verify (c : Chan) : (s.latchClip c).verify = s.verify := rfl
@[simp] theorem State.latchClip_peek (c : Chan) : (s.latchClip c).peek = s.peek := rfl
@[simp] theorem State.latchClip_save (c : Chan) : (s.latchClip c).save = s.save := rfl
@[simp] theorem State.latchClip_restart (c : Chan) : (s.latchClip c).restart = s.restart := rfl

/-! ### latchLowLevel -/

@[simp] theorem State.latchLowLevel_pending (c : Chan) : (s.latchLowLevel c).pending = s.pending := rfl
@[simp] theorem State.latchLowLevel_handed (c : Chan) : (s.latchLowLevel c).handed = s.handed := rfl
@[simp] theorem State.latchLowLevel_startup (c : Chan) : (s.latchLowLevel c).startup = s.startup := rfl
@[simp] theorem State.latchLowLevel_cfgMem (c : Chan) : (s.latchLowLevel c).cfgMem = s.cfgMem := rfl
@[simp] theorem State.latchLowLevel_port (c : Chan) : (s.latchLowLevel c).port = s.port := rfl
@[simp] theorem State.latchLowLevel_ret (c : Chan) : (s.latchLowLevel c).ret = s.ret := rfl
@[simp] theorem State.latchLowLevel_asm (c : Chan) : (s.latchLowLevel c).asm = s.asm := rfl
@[simp] theorem State.latchLowLevel_frames (c : Chan) : (s.latchLowLevel c).frames = s.frames := rfl
@[simp] theorem State.latchLowLevel_coder (c : Chan) : (s.latchLowLevel c).coder = s.coder := rfl
@[simp] theorem State.latchLowLevel_ctx (c : Chan) : (s.latchLowLevel c).ctx = s.ctx := rfl
@[simp] theorem State.latchLowLevel_profiles (c : Chan) : (s.latchLowLevel c).profiles = s.profiles := rfl
@[simp] theorem State.latchLowLevel_chans (c : Chan) : (s.latchLowLevel c).chans = s.chans := rfl
@[simp] theorem State.latchLowLevel_letters (c : Chan) : (s.latchLowLevel c).letters = s.letters := rfl
@[simp] theorem State.latchLowLevel_letterNo (c : Chan) : (s.latchLowLevel c).letterNo = s.letterNo := rfl
@[simp] theorem State.latchLowLevel_takes (c : Chan) : (s.latchLowLevel c).takes = s.takes := rfl
@[simp] theorem State.latchLowLevel_writer (c : Chan) : (s.latchLowLevel c).writer = s.writer := rfl
@[simp] theorem State.latchLowLevel_stretch (c : Chan) : (s.latchLowLevel c).stretch = s.stretch := rfl
@[simp] theorem State.latchLowLevel_reports (c : Chan) : (s.latchLowLevel c).reports = s.reports := rfl
@[simp] theorem State.latchLowLevel_store (c : Chan) : (s.latchLowLevel c).store = s.store := rfl
@[simp] theorem State.latchLowLevel_ctl (c : Chan) : (s.latchLowLevel c).ctl = s.ctl := rfl
@[simp] theorem State.latchLowLevel_emitter (c : Chan) : (s.latchLowLevel c).emitter = s.emitter := rfl
@[simp] theorem State.latchLowLevel_steps (c : Chan) : (s.latchLowLevel c).steps = s.steps := rfl
@[simp] theorem State.latchLowLevel_pool (c : Chan) : (s.latchLowLevel c).pool = s.pool := rfl
@[simp] theorem State.latchLowLevel_hold (c : Chan) : (s.latchLowLevel c).hold = s.hold := rfl
@[simp] theorem State.latchLowLevel_dev (c : Chan) : (s.latchLowLevel c).dev = s.dev := rfl
@[simp] theorem State.latchLowLevel_chanConds (c : Chan) : (s.latchLowLevel c).chanConds = s.chanConds.set c { s.chanConds[c] with lowLevel := .set } := rfl
@[simp] theorem State.latchLowLevel_errMask (c : Chan) : (s.latchLowLevel c).errMask = s.errMask := rfl
@[simp] theorem State.latchLowLevel_warnMask (c : Chan) : (s.latchLowLevel c).warnMask = s.warnMask := rfl
@[simp] theorem State.latchLowLevel_verify (c : Chan) : (s.latchLowLevel c).verify = s.verify := rfl
@[simp] theorem State.latchLowLevel_peek (c : Chan) : (s.latchLowLevel c).peek = s.peek := rfl
@[simp] theorem State.latchLowLevel_save (c : Chan) : (s.latchLowLevel c).save = s.save := rfl
@[simp] theorem State.latchLowLevel_restart (c : Chan) : (s.latchLowLevel c).restart = s.restart := rfl

/-! ### setMasks -/

@[simp] theorem State.setMasks_pending (e w : Byte) : (s.setMasks e w).pending = s.pending := rfl
@[simp] theorem State.setMasks_handed (e w : Byte) : (s.setMasks e w).handed = s.handed := rfl
@[simp] theorem State.setMasks_startup (e w : Byte) : (s.setMasks e w).startup = s.startup := rfl
@[simp] theorem State.setMasks_cfgMem (e w : Byte) : (s.setMasks e w).cfgMem = s.cfgMem := rfl
@[simp] theorem State.setMasks_port (e w : Byte) : (s.setMasks e w).port = s.port := rfl
@[simp] theorem State.setMasks_ret (e w : Byte) : (s.setMasks e w).ret = s.ret := rfl
@[simp] theorem State.setMasks_asm (e w : Byte) : (s.setMasks e w).asm = s.asm := rfl
@[simp] theorem State.setMasks_frames (e w : Byte) : (s.setMasks e w).frames = s.frames := rfl
@[simp] theorem State.setMasks_coder (e w : Byte) : (s.setMasks e w).coder = s.coder := rfl
@[simp] theorem State.setMasks_ctx (e w : Byte) : (s.setMasks e w).ctx = s.ctx := rfl
@[simp] theorem State.setMasks_profiles (e w : Byte) : (s.setMasks e w).profiles = s.profiles := rfl
@[simp] theorem State.setMasks_chans (e w : Byte) : (s.setMasks e w).chans = s.chans := rfl
@[simp] theorem State.setMasks_letters (e w : Byte) : (s.setMasks e w).letters = s.letters := rfl
@[simp] theorem State.setMasks_letterNo (e w : Byte) : (s.setMasks e w).letterNo = s.letterNo := rfl
@[simp] theorem State.setMasks_takes (e w : Byte) : (s.setMasks e w).takes = s.takes := rfl
@[simp] theorem State.setMasks_writer (e w : Byte) : (s.setMasks e w).writer = s.writer := rfl
@[simp] theorem State.setMasks_stretch (e w : Byte) : (s.setMasks e w).stretch = s.stretch := rfl
@[simp] theorem State.setMasks_reports (e w : Byte) : (s.setMasks e w).reports = s.reports := rfl
@[simp] theorem State.setMasks_store (e w : Byte) : (s.setMasks e w).store = s.store := rfl
@[simp] theorem State.setMasks_ctl (e w : Byte) : (s.setMasks e w).ctl = s.ctl := rfl
@[simp] theorem State.setMasks_emitter (e w : Byte) : (s.setMasks e w).emitter = s.emitter := rfl
@[simp] theorem State.setMasks_steps (e w : Byte) : (s.setMasks e w).steps = s.steps := rfl
@[simp] theorem State.setMasks_pool (e w : Byte) : (s.setMasks e w).pool = s.pool := rfl
@[simp] theorem State.setMasks_hold (e w : Byte) : (s.setMasks e w).hold = s.hold := rfl
@[simp] theorem State.setMasks_dev (e w : Byte) : (s.setMasks e w).dev = s.dev := rfl
@[simp] theorem State.setMasks_chanConds (e w : Byte) : (s.setMasks e w).chanConds = s.chanConds := rfl
@[simp] theorem State.setMasks_errMask (e w : Byte) : (s.setMasks e w).errMask = errorMaskOf e := rfl
@[simp] theorem State.setMasks_warnMask (e w : Byte) : (s.setMasks e w).warnMask = w := rfl
@[simp] theorem State.setMasks_verify (e w : Byte) : (s.setMasks e w).verify = s.verify := rfl
@[simp] theorem State.setMasks_peek (e w : Byte) : (s.setMasks e w).peek = s.peek := rfl
@[simp] theorem State.setMasks_save (e w : Byte) : (s.setMasks e w).save = s.save := rfl
@[simp] theorem State.setMasks_restart (e w : Byte) : (s.setMasks e w).restart = s.restart := rfl

/-! ### reportDevice -/

@[simp] theorem State.reportDevice_pending : s.reportDevice.pending = s.pending := rfl
@[simp] theorem State.reportDevice_handed : s.reportDevice.handed = s.handed := rfl
@[simp] theorem State.reportDevice_startup : s.reportDevice.startup = s.startup := rfl
@[simp] theorem State.reportDevice_cfgMem : s.reportDevice.cfgMem = s.cfgMem := rfl
@[simp] theorem State.reportDevice_port : s.reportDevice.port = s.port := rfl
@[simp] theorem State.reportDevice_ret : s.reportDevice.ret = s.ret := rfl
@[simp] theorem State.reportDevice_asm : s.reportDevice.asm = s.asm := rfl
@[simp] theorem State.reportDevice_frames : s.reportDevice.frames = s.frames := rfl
@[simp] theorem State.reportDevice_coder : s.reportDevice.coder = s.coder := rfl
@[simp] theorem State.reportDevice_ctx : s.reportDevice.ctx = s.ctx := rfl
@[simp] theorem State.reportDevice_profiles : s.reportDevice.profiles = s.profiles := rfl
@[simp] theorem State.reportDevice_chans : s.reportDevice.chans = s.chans := rfl
@[simp] theorem State.reportDevice_letters : s.reportDevice.letters = s.letters := rfl
@[simp] theorem State.reportDevice_letterNo : s.reportDevice.letterNo = s.letterNo := rfl
@[simp] theorem State.reportDevice_takes : s.reportDevice.takes = s.takes := rfl
@[simp] theorem State.reportDevice_writer : s.reportDevice.writer = s.writer := rfl
@[simp] theorem State.reportDevice_stretch : s.reportDevice.stretch = s.stretch := rfl
@[simp] theorem State.reportDevice_reports : s.reportDevice.reports = s.reports := rfl
@[simp] theorem State.reportDevice_store : s.reportDevice.store = s.store := rfl
@[simp] theorem State.reportDevice_ctl : s.reportDevice.ctl = s.ctl := rfl
@[simp] theorem State.reportDevice_emitter : s.reportDevice.emitter = s.emitter := rfl
@[simp] theorem State.reportDevice_steps : s.reportDevice.steps = s.steps := rfl
@[simp] theorem State.reportDevice_pool : s.reportDevice.pool = s.pool := rfl
@[simp] theorem State.reportDevice_hold : s.reportDevice.hold = s.hold := rfl
@[simp] theorem State.reportDevice_dev : s.reportDevice.dev = s.dev.map Cond.reported := rfl
@[simp] theorem State.reportDevice_chanConds : s.reportDevice.chanConds = s.chanConds := rfl
@[simp] theorem State.reportDevice_errMask : s.reportDevice.errMask = s.errMask := rfl
@[simp] theorem State.reportDevice_warnMask : s.reportDevice.warnMask = s.warnMask := rfl
@[simp] theorem State.reportDevice_verify : s.reportDevice.verify = s.verify := rfl
@[simp] theorem State.reportDevice_peek : s.reportDevice.peek = s.peek := rfl
@[simp] theorem State.reportDevice_save : s.reportDevice.save = s.save := rfl
@[simp] theorem State.reportDevice_restart : s.reportDevice.restart = s.restart := rfl

/-! ### reportChannel -/

@[simp] theorem State.reportChannel_pending (c : Chan) : (s.reportChannel c).pending = s.pending := rfl
@[simp] theorem State.reportChannel_handed (c : Chan) : (s.reportChannel c).handed = s.handed := rfl
@[simp] theorem State.reportChannel_startup (c : Chan) : (s.reportChannel c).startup = s.startup := rfl
@[simp] theorem State.reportChannel_cfgMem (c : Chan) : (s.reportChannel c).cfgMem = s.cfgMem := rfl
@[simp] theorem State.reportChannel_port (c : Chan) : (s.reportChannel c).port = s.port := rfl
@[simp] theorem State.reportChannel_ret (c : Chan) : (s.reportChannel c).ret = s.ret := rfl
@[simp] theorem State.reportChannel_asm (c : Chan) : (s.reportChannel c).asm = s.asm := rfl
@[simp] theorem State.reportChannel_frames (c : Chan) : (s.reportChannel c).frames = s.frames := rfl
@[simp] theorem State.reportChannel_coder (c : Chan) : (s.reportChannel c).coder = s.coder := rfl
@[simp] theorem State.reportChannel_ctx (c : Chan) : (s.reportChannel c).ctx = s.ctx := rfl
@[simp] theorem State.reportChannel_profiles (c : Chan) : (s.reportChannel c).profiles = s.profiles := rfl
@[simp] theorem State.reportChannel_chans (c : Chan) : (s.reportChannel c).chans = s.chans := rfl
@[simp] theorem State.reportChannel_letters (c : Chan) : (s.reportChannel c).letters = s.letters := rfl
@[simp] theorem State.reportChannel_letterNo (c : Chan) : (s.reportChannel c).letterNo = s.letterNo := rfl
@[simp] theorem State.reportChannel_takes (c : Chan) : (s.reportChannel c).takes = s.takes := rfl
@[simp] theorem State.reportChannel_writer (c : Chan) : (s.reportChannel c).writer = s.writer := rfl
@[simp] theorem State.reportChannel_stretch (c : Chan) : (s.reportChannel c).stretch = s.stretch := rfl
@[simp] theorem State.reportChannel_reports (c : Chan) : (s.reportChannel c).reports = s.reports := rfl
@[simp] theorem State.reportChannel_store (c : Chan) : (s.reportChannel c).store = s.store := rfl
@[simp] theorem State.reportChannel_ctl (c : Chan) : (s.reportChannel c).ctl = s.ctl := rfl
@[simp] theorem State.reportChannel_emitter (c : Chan) : (s.reportChannel c).emitter = s.emitter := rfl
@[simp] theorem State.reportChannel_steps (c : Chan) : (s.reportChannel c).steps = s.steps := rfl
@[simp] theorem State.reportChannel_pool (c : Chan) : (s.reportChannel c).pool = s.pool := rfl
@[simp] theorem State.reportChannel_hold (c : Chan) : (s.reportChannel c).hold = s.hold := rfl
@[simp] theorem State.reportChannel_dev (c : Chan) : (s.reportChannel c).dev = s.dev := rfl
@[simp] theorem State.reportChannel_chanConds (c : Chan) : (s.reportChannel c).chanConds = s.chanConds.set c s.chanConds[c].reported := rfl
@[simp] theorem State.reportChannel_errMask (c : Chan) : (s.reportChannel c).errMask = s.errMask := rfl
@[simp] theorem State.reportChannel_warnMask (c : Chan) : (s.reportChannel c).warnMask = s.warnMask := rfl
@[simp] theorem State.reportChannel_verify (c : Chan) : (s.reportChannel c).verify = s.verify := rfl
@[simp] theorem State.reportChannel_peek (c : Chan) : (s.reportChannel c).peek = s.peek := rfl
@[simp] theorem State.reportChannel_save (c : Chan) : (s.reportChannel c).save = s.save := rfl
@[simp] theorem State.reportChannel_restart (c : Chan) : (s.reportChannel c).restart = s.restart := rfl

/-! ### modChanConds -/

@[simp] theorem State.modChanConds_pending (c : Chan) (f : ChanConds → ChanConds) : (s.modChanConds c f).pending = s.pending := rfl
@[simp] theorem State.modChanConds_handed (c : Chan) (f : ChanConds → ChanConds) : (s.modChanConds c f).handed = s.handed := rfl
@[simp] theorem State.modChanConds_startup (c : Chan) (f : ChanConds → ChanConds) : (s.modChanConds c f).startup = s.startup := rfl
@[simp] theorem State.modChanConds_cfgMem (c : Chan) (f : ChanConds → ChanConds) : (s.modChanConds c f).cfgMem = s.cfgMem := rfl
@[simp] theorem State.modChanConds_port (c : Chan) (f : ChanConds → ChanConds) : (s.modChanConds c f).port = s.port := rfl
@[simp] theorem State.modChanConds_ret (c : Chan) (f : ChanConds → ChanConds) : (s.modChanConds c f).ret = s.ret := rfl
@[simp] theorem State.modChanConds_asm (c : Chan) (f : ChanConds → ChanConds) : (s.modChanConds c f).asm = s.asm := rfl
@[simp] theorem State.modChanConds_frames (c : Chan) (f : ChanConds → ChanConds) : (s.modChanConds c f).frames = s.frames := rfl
@[simp] theorem State.modChanConds_coder (c : Chan) (f : ChanConds → ChanConds) : (s.modChanConds c f).coder = s.coder := rfl
@[simp] theorem State.modChanConds_ctx (c : Chan) (f : ChanConds → ChanConds) : (s.modChanConds c f).ctx = s.ctx := rfl
@[simp] theorem State.modChanConds_profiles (c : Chan) (f : ChanConds → ChanConds) : (s.modChanConds c f).profiles = s.profiles := rfl
@[simp] theorem State.modChanConds_chans (c : Chan) (f : ChanConds → ChanConds) : (s.modChanConds c f).chans = s.chans := rfl
@[simp] theorem State.modChanConds_letters (c : Chan) (f : ChanConds → ChanConds) : (s.modChanConds c f).letters = s.letters := rfl
@[simp] theorem State.modChanConds_letterNo (c : Chan) (f : ChanConds → ChanConds) : (s.modChanConds c f).letterNo = s.letterNo := rfl
@[simp] theorem State.modChanConds_takes (c : Chan) (f : ChanConds → ChanConds) : (s.modChanConds c f).takes = s.takes := rfl
@[simp] theorem State.modChanConds_writer (c : Chan) (f : ChanConds → ChanConds) : (s.modChanConds c f).writer = s.writer := rfl
@[simp] theorem State.modChanConds_stretch (c : Chan) (f : ChanConds → ChanConds) : (s.modChanConds c f).stretch = s.stretch := rfl
@[simp] theorem State.modChanConds_reports (c : Chan) (f : ChanConds → ChanConds) : (s.modChanConds c f).reports = s.reports := rfl
@[simp] theorem State.modChanConds_store (c : Chan) (f : ChanConds → ChanConds) : (s.modChanConds c f).store = s.store := rfl
@[simp] theorem State.modChanConds_ctl (c : Chan) (f : ChanConds → ChanConds) : (s.modChanConds c f).ctl = s.ctl := rfl
@[simp] theorem State.modChanConds_emitter (c : Chan) (f : ChanConds → ChanConds) : (s.modChanConds c f).emitter = s.emitter := rfl
@[simp] theorem State.modChanConds_steps (c : Chan) (f : ChanConds → ChanConds) : (s.modChanConds c f).steps = s.steps := rfl
@[simp] theorem State.modChanConds_pool (c : Chan) (f : ChanConds → ChanConds) : (s.modChanConds c f).pool = s.pool := rfl
@[simp] theorem State.modChanConds_hold (c : Chan) (f : ChanConds → ChanConds) : (s.modChanConds c f).hold = s.hold := rfl
@[simp] theorem State.modChanConds_dev (c : Chan) (f : ChanConds → ChanConds) : (s.modChanConds c f).dev = s.dev := rfl
@[simp] theorem State.modChanConds_chanConds (c : Chan) (f : ChanConds → ChanConds) : (s.modChanConds c f).chanConds = s.chanConds.set c (f s.chanConds[c]) := rfl
@[simp] theorem State.modChanConds_errMask (c : Chan) (f : ChanConds → ChanConds) : (s.modChanConds c f).errMask = s.errMask := rfl
@[simp] theorem State.modChanConds_warnMask (c : Chan) (f : ChanConds → ChanConds) : (s.modChanConds c f).warnMask = s.warnMask := rfl
@[simp] theorem State.modChanConds_verify (c : Chan) (f : ChanConds → ChanConds) : (s.modChanConds c f).verify = s.verify := rfl
@[simp] theorem State.modChanConds_peek (c : Chan) (f : ChanConds → ChanConds) : (s.modChanConds c f).peek = s.peek := rfl
@[simp] theorem State.modChanConds_save (c : Chan) (f : ChanConds → ChanConds) : (s.modChanConds c f).save = s.save := rfl
@[simp] theorem State.modChanConds_restart (c : Chan) (f : ChanConds → ChanConds) : (s.modChanConds c f).restart = s.restart := rfl

/-! ### changeStore -/

@[simp] theorem State.changeStore_pending (x : List Host.Cell) : (s.changeStore x).pending = s.pending := rfl
@[simp] theorem State.changeStore_handed (x : List Host.Cell) : (s.changeStore x).handed = s.handed := rfl
@[simp] theorem State.changeStore_startup (x : List Host.Cell) : (s.changeStore x).startup = s.startup := rfl
@[simp] theorem State.changeStore_cfgMem (x : List Host.Cell) : (s.changeStore x).cfgMem = s.cfgMem := rfl
@[simp] theorem State.changeStore_port (x : List Host.Cell) : (s.changeStore x).port = s.port := rfl
@[simp] theorem State.changeStore_ret (x : List Host.Cell) : (s.changeStore x).ret = s.ret := rfl
@[simp] theorem State.changeStore_asm (x : List Host.Cell) : (s.changeStore x).asm = s.asm := rfl
@[simp] theorem State.changeStore_frames (x : List Host.Cell) : (s.changeStore x).frames = s.frames := rfl
@[simp] theorem State.changeStore_coder (x : List Host.Cell) : (s.changeStore x).coder = s.coder := rfl
@[simp] theorem State.changeStore_ctx (x : List Host.Cell) : (s.changeStore x).ctx = s.ctx := rfl
@[simp] theorem State.changeStore_profiles (x : List Host.Cell) : (s.changeStore x).profiles = s.profiles := rfl
@[simp] theorem State.changeStore_chans (x : List Host.Cell) : (s.changeStore x).chans = s.chans := rfl
@[simp] theorem State.changeStore_letters (x : List Host.Cell) : (s.changeStore x).letters = s.letters := rfl
@[simp] theorem State.changeStore_letterNo (x : List Host.Cell) : (s.changeStore x).letterNo = s.letterNo := rfl
@[simp] theorem State.changeStore_takes (x : List Host.Cell) : (s.changeStore x).takes = s.takes := rfl
@[simp] theorem State.changeStore_writer (x : List Host.Cell) : (s.changeStore x).writer = s.writer := rfl
@[simp] theorem State.changeStore_stretch (x : List Host.Cell) : (s.changeStore x).stretch = s.stretch := rfl
@[simp] theorem State.changeStore_reports (x : List Host.Cell) : (s.changeStore x).reports = s.reports := rfl
@[simp] theorem State.changeStore_store (x : List Host.Cell) : (s.changeStore x).store = Memory.change s.store Config.storeTop x := rfl
@[simp] theorem State.changeStore_ctl (x : List Host.Cell) : (s.changeStore x).ctl = s.ctl := rfl
@[simp] theorem State.changeStore_emitter (x : List Host.Cell) : (s.changeStore x).emitter = s.emitter := rfl
@[simp] theorem State.changeStore_steps (x : List Host.Cell) : (s.changeStore x).steps = s.steps := rfl
@[simp] theorem State.changeStore_pool (x : List Host.Cell) : (s.changeStore x).pool = s.pool := rfl
@[simp] theorem State.changeStore_hold (x : List Host.Cell) : (s.changeStore x).hold = s.hold := rfl
@[simp] theorem State.changeStore_dev (x : List Host.Cell) : (s.changeStore x).dev = s.dev := rfl
@[simp] theorem State.changeStore_chanConds (x : List Host.Cell) : (s.changeStore x).chanConds = s.chanConds := rfl
@[simp] theorem State.changeStore_errMask (x : List Host.Cell) : (s.changeStore x).errMask = s.errMask := rfl
@[simp] theorem State.changeStore_warnMask (x : List Host.Cell) : (s.changeStore x).warnMask = s.warnMask := rfl
@[simp] theorem State.changeStore_verify (x : List Host.Cell) : (s.changeStore x).verify = s.verify := rfl
@[simp] theorem State.changeStore_peek (x : List Host.Cell) : (s.changeStore x).peek = s.peek := rfl
@[simp] theorem State.changeStore_save (x : List Host.Cell) : (s.changeStore x).save = s.save := rfl
@[simp] theorem State.changeStore_restart (x : List Host.Cell) : (s.changeStore x).restart = s.restart := rfl

/-! ### changeConfig -/

@[simp] theorem State.changeConfig_pending (x : List Host.Cell) : (s.changeConfig x).pending = s.pending := rfl
@[simp] theorem State.changeConfig_handed (x : List Host.Cell) : (s.changeConfig x).handed = s.handed := rfl
@[simp] theorem State.changeConfig_startup (x : List Host.Cell) : (s.changeConfig x).startup = s.startup := rfl
@[simp] theorem State.changeConfig_cfgMem (x : List Host.Cell) : (s.changeConfig x).cfgMem = Memory.change s.cfgMem Config.configTop x := rfl
@[simp] theorem State.changeConfig_port (x : List Host.Cell) : (s.changeConfig x).port = s.port := rfl
@[simp] theorem State.changeConfig_ret (x : List Host.Cell) : (s.changeConfig x).ret = s.ret := rfl
@[simp] theorem State.changeConfig_asm (x : List Host.Cell) : (s.changeConfig x).asm = s.asm := rfl
@[simp] theorem State.changeConfig_frames (x : List Host.Cell) : (s.changeConfig x).frames = s.frames := rfl
@[simp] theorem State.changeConfig_coder (x : List Host.Cell) : (s.changeConfig x).coder = s.coder := rfl
@[simp] theorem State.changeConfig_ctx (x : List Host.Cell) : (s.changeConfig x).ctx = s.ctx := rfl
@[simp] theorem State.changeConfig_profiles (x : List Host.Cell) : (s.changeConfig x).profiles = s.profiles := rfl
@[simp] theorem State.changeConfig_chans (x : List Host.Cell) : (s.changeConfig x).chans = s.chans := rfl
@[simp] theorem State.changeConfig_letters (x : List Host.Cell) : (s.changeConfig x).letters = s.letters := rfl
@[simp] theorem State.changeConfig_letterNo (x : List Host.Cell) : (s.changeConfig x).letterNo = s.letterNo := rfl
@[simp] theorem State.changeConfig_takes (x : List Host.Cell) : (s.changeConfig x).takes = s.takes := rfl
@[simp] theorem State.changeConfig_writer (x : List Host.Cell) : (s.changeConfig x).writer = s.writer := rfl
@[simp] theorem State.changeConfig_stretch (x : List Host.Cell) : (s.changeConfig x).stretch = s.stretch := rfl
@[simp] theorem State.changeConfig_reports (x : List Host.Cell) : (s.changeConfig x).reports = s.reports := rfl
@[simp] theorem State.changeConfig_store (x : List Host.Cell) : (s.changeConfig x).store = s.store := rfl
@[simp] theorem State.changeConfig_ctl (x : List Host.Cell) : (s.changeConfig x).ctl = s.ctl := rfl
@[simp] theorem State.changeConfig_emitter (x : List Host.Cell) : (s.changeConfig x).emitter = s.emitter := rfl
@[simp] theorem State.changeConfig_steps (x : List Host.Cell) : (s.changeConfig x).steps = s.steps := rfl
@[simp] theorem State.changeConfig_pool (x : List Host.Cell) : (s.changeConfig x).pool = s.pool := rfl
@[simp] theorem State.changeConfig_hold (x : List Host.Cell) : (s.changeConfig x).hold = s.hold := rfl
@[simp] theorem State.changeConfig_dev (x : List Host.Cell) : (s.changeConfig x).dev = s.dev := rfl
@[simp] theorem State.changeConfig_chanConds (x : List Host.Cell) : (s.changeConfig x).chanConds = s.chanConds := rfl
@[simp] theorem State.changeConfig_errMask (x : List Host.Cell) : (s.changeConfig x).errMask = s.errMask := rfl
@[simp] theorem State.changeConfig_warnMask (x : List Host.Cell) : (s.changeConfig x).warnMask = s.warnMask := rfl
@[simp] theorem State.changeConfig_verify (x : List Host.Cell) : (s.changeConfig x).verify = s.verify := rfl
@[simp] theorem State.changeConfig_peek (x : List Host.Cell) : (s.changeConfig x).peek = s.peek := rfl
@[simp] theorem State.changeConfig_save (x : List Host.Cell) : (s.changeConfig x).save = s.save := rfl
@[simp] theorem State.changeConfig_restart (x : List Host.Cell) : (s.changeConfig x).restart = s.restart := rfl

/-! ### takeCell -/

@[simp] theorem State.takeCell_pending (i : Instr) : (s.takeCell i).pending = s.pending := rfl
@[simp] theorem State.takeCell_handed (i : Instr) : (s.takeCell i).handed = s.handed.erase i := rfl
@[simp] theorem State.takeCell_startup (i : Instr) : (s.takeCell i).startup = s.startup := rfl
@[simp] theorem State.takeCell_cfgMem (i : Instr) : (s.takeCell i).cfgMem = s.cfgMem := rfl
@[simp] theorem State.takeCell_port (i : Instr) : (s.takeCell i).port = s.port := rfl
@[simp] theorem State.takeCell_ret (i : Instr) : (s.takeCell i).ret = s.ret := rfl
@[simp] theorem State.takeCell_asm (i : Instr) : (s.takeCell i).asm = s.asm := rfl
@[simp] theorem State.takeCell_frames (i : Instr) : (s.takeCell i).frames = s.frames := rfl
@[simp] theorem State.takeCell_coder (i : Instr) : (s.takeCell i).coder = s.coder := rfl
@[simp] theorem State.takeCell_ctx (i : Instr) : (s.takeCell i).ctx = s.ctx := rfl
@[simp] theorem State.takeCell_profiles (i : Instr) : (s.takeCell i).profiles = s.profiles := rfl
@[simp] theorem State.takeCell_chans (i : Instr) : (s.takeCell i).chans = s.chans := rfl
@[simp] theorem State.takeCell_letters (i : Instr) : (s.takeCell i).letters = s.letters := rfl
@[simp] theorem State.takeCell_letterNo (i : Instr) : (s.takeCell i).letterNo = s.letterNo := rfl
@[simp] theorem State.takeCell_takes (i : Instr) : (s.takeCell i).takes = s.takes := rfl
@[simp] theorem State.takeCell_writer (i : Instr) : (s.takeCell i).writer = s.writer := rfl
@[simp] theorem State.takeCell_stretch (i : Instr) : (s.takeCell i).stretch = s.stretch := rfl
@[simp] theorem State.takeCell_reports (i : Instr) : (s.takeCell i).reports = s.reports := rfl
@[simp] theorem State.takeCell_store (i : Instr) : (s.takeCell i).store = s.store := rfl
@[simp] theorem State.takeCell_ctl (i : Instr) : (s.takeCell i).ctl = s.ctl := rfl
@[simp] theorem State.takeCell_emitter (i : Instr) : (s.takeCell i).emitter = s.emitter := rfl
@[simp] theorem State.takeCell_steps (i : Instr) : (s.takeCell i).steps = s.steps := rfl
@[simp] theorem State.takeCell_pool (i : Instr) : (s.takeCell i).pool = s.pool := rfl
@[simp] theorem State.takeCell_hold (i : Instr) : (s.takeCell i).hold = s.hold := rfl
@[simp] theorem State.takeCell_dev (i : Instr) : (s.takeCell i).dev = s.dev := rfl
@[simp] theorem State.takeCell_chanConds (i : Instr) : (s.takeCell i).chanConds = s.chanConds := rfl
@[simp] theorem State.takeCell_errMask (i : Instr) : (s.takeCell i).errMask = s.errMask := rfl
@[simp] theorem State.takeCell_warnMask (i : Instr) : (s.takeCell i).warnMask = s.warnMask := rfl
@[simp] theorem State.takeCell_verify (i : Instr) : (s.takeCell i).verify = s.verify := rfl
@[simp] theorem State.takeCell_peek (i : Instr) : (s.takeCell i).peek = s.peek := rfl
@[simp] theorem State.takeCell_save (i : Instr) : (s.takeCell i).save = s.save := rfl
@[simp] theorem State.takeCell_restart (i : Instr) : (s.takeCell i).restart = s.restart := rfl

/-! ### withPending -/

@[simp] theorem State.withPending_pending (q : List Instr) : (s.withPending q).pending = q := rfl
@[simp] theorem State.withPending_handed (q : List Instr) : (s.withPending q).handed = s.handed := rfl
@[simp] theorem State.withPending_startup (q : List Instr) : (s.withPending q).startup = s.startup := rfl
@[simp] theorem State.withPending_cfgMem (q : List Instr) : (s.withPending q).cfgMem = s.cfgMem := rfl
@[simp] theorem State.withPending_port (q : List Instr) : (s.withPending q).port = s.port := rfl
@[simp] theorem State.withPending_ret (q : List Instr) : (s.withPending q).ret = s.ret := rfl
@[simp] theorem State.withPending_asm (q : List Instr) : (s.withPending q).asm = s.asm := rfl
@[simp] theorem State.withPending_frames (q : List Instr) : (s.withPending q).frames = s.frames := rfl
@[simp] theorem State.withPending_coder (q : List Instr) : (s.withPending q).coder = s.coder := rfl
@[simp] theorem State.withPending_ctx (q : List Instr) : (s.withPending q).ctx = s.ctx := rfl
@[simp] theorem State.withPending_profiles (q : List Instr) : (s.withPending q).profiles = s.profiles := rfl
@[simp] theorem State.withPending_chans (q : List Instr) : (s.withPending q).chans = s.chans := rfl
@[simp] theorem State.withPending_letters (q : List Instr) : (s.withPending q).letters = s.letters := rfl
@[simp] theorem State.withPending_letterNo (q : List Instr) : (s.withPending q).letterNo = s.letterNo := rfl
@[simp] theorem State.withPending_takes (q : List Instr) : (s.withPending q).takes = s.takes := rfl
@[simp] theorem State.withPending_writer (q : List Instr) : (s.withPending q).writer = s.writer := rfl
@[simp] theorem State.withPending_stretch (q : List Instr) : (s.withPending q).stretch = s.stretch := rfl
@[simp] theorem State.withPending_reports (q : List Instr) : (s.withPending q).reports = s.reports := rfl
@[simp] theorem State.withPending_store (q : List Instr) : (s.withPending q).store = s.store := rfl
@[simp] theorem State.withPending_ctl (q : List Instr) : (s.withPending q).ctl = s.ctl := rfl
@[simp] theorem State.withPending_emitter (q : List Instr) : (s.withPending q).emitter = s.emitter := rfl
@[simp] theorem State.withPending_steps (q : List Instr) : (s.withPending q).steps = s.steps := rfl
@[simp] theorem State.withPending_pool (q : List Instr) : (s.withPending q).pool = s.pool := rfl
@[simp] theorem State.withPending_hold (q : List Instr) : (s.withPending q).hold = s.hold := rfl
@[simp] theorem State.withPending_dev (q : List Instr) : (s.withPending q).dev = s.dev := rfl
@[simp] theorem State.withPending_chanConds (q : List Instr) : (s.withPending q).chanConds = s.chanConds := rfl
@[simp] theorem State.withPending_errMask (q : List Instr) : (s.withPending q).errMask = s.errMask := rfl
@[simp] theorem State.withPending_warnMask (q : List Instr) : (s.withPending q).warnMask = s.warnMask := rfl
@[simp] theorem State.withPending_verify (q : List Instr) : (s.withPending q).verify = s.verify := rfl
@[simp] theorem State.withPending_peek (q : List Instr) : (s.withPending q).peek = s.peek := rfl
@[simp] theorem State.withPending_save (q : List Instr) : (s.withPending q).save = s.save := rfl
@[simp] theorem State.withPending_restart (q : List Instr) : (s.withPending q).restart = s.restart := rfl

/-! ### modChan -/

@[simp] theorem State.modChan_pending (c : Chan) (f : Channel → Channel) : (s.modChan c f).pending = s.pending := rfl
@[simp] theorem State.modChan_handed (c : Chan) (f : Channel → Channel) : (s.modChan c f).handed = s.handed := rfl
@[simp] theorem State.modChan_startup (c : Chan) (f : Channel → Channel) : (s.modChan c f).startup = s.startup := rfl
@[simp] theorem State.modChan_cfgMem (c : Chan) (f : Channel → Channel) : (s.modChan c f).cfgMem = s.cfgMem := rfl
@[simp] theorem State.modChan_port (c : Chan) (f : Channel → Channel) : (s.modChan c f).port = s.port := rfl
@[simp] theorem State.modChan_ret (c : Chan) (f : Channel → Channel) : (s.modChan c f).ret = s.ret := rfl
@[simp] theorem State.modChan_asm (c : Chan) (f : Channel → Channel) : (s.modChan c f).asm = s.asm := rfl
@[simp] theorem State.modChan_frames (c : Chan) (f : Channel → Channel) : (s.modChan c f).frames = s.frames := rfl
@[simp] theorem State.modChan_coder (c : Chan) (f : Channel → Channel) : (s.modChan c f).coder = s.coder := rfl
@[simp] theorem State.modChan_ctx (c : Chan) (f : Channel → Channel) : (s.modChan c f).ctx = s.ctx := rfl
@[simp] theorem State.modChan_profiles (c : Chan) (f : Channel → Channel) : (s.modChan c f).profiles = s.profiles := rfl
@[simp] theorem State.modChan_chans (c : Chan) (f : Channel → Channel) : (s.modChan c f).chans = s.chans.set c (f s.chans[c]) := rfl
@[simp] theorem State.modChan_letters (c : Chan) (f : Channel → Channel) : (s.modChan c f).letters = s.letters := rfl
@[simp] theorem State.modChan_letterNo (c : Chan) (f : Channel → Channel) : (s.modChan c f).letterNo = s.letterNo := rfl
@[simp] theorem State.modChan_takes (c : Chan) (f : Channel → Channel) : (s.modChan c f).takes = s.takes := rfl
@[simp] theorem State.modChan_writer (c : Chan) (f : Channel → Channel) : (s.modChan c f).writer = s.writer := rfl
@[simp] theorem State.modChan_stretch (c : Chan) (f : Channel → Channel) : (s.modChan c f).stretch = s.stretch := rfl
@[simp] theorem State.modChan_reports (c : Chan) (f : Channel → Channel) : (s.modChan c f).reports = s.reports := rfl
@[simp] theorem State.modChan_store (c : Chan) (f : Channel → Channel) : (s.modChan c f).store = s.store := rfl
@[simp] theorem State.modChan_ctl (c : Chan) (f : Channel → Channel) : (s.modChan c f).ctl = s.ctl := rfl
@[simp] theorem State.modChan_emitter (c : Chan) (f : Channel → Channel) : (s.modChan c f).emitter = s.emitter := rfl
@[simp] theorem State.modChan_steps (c : Chan) (f : Channel → Channel) : (s.modChan c f).steps = s.steps := rfl
@[simp] theorem State.modChan_pool (c : Chan) (f : Channel → Channel) : (s.modChan c f).pool = s.pool := rfl
@[simp] theorem State.modChan_hold (c : Chan) (f : Channel → Channel) : (s.modChan c f).hold = s.hold := rfl
@[simp] theorem State.modChan_dev (c : Chan) (f : Channel → Channel) : (s.modChan c f).dev = s.dev := rfl
@[simp] theorem State.modChan_chanConds (c : Chan) (f : Channel → Channel) : (s.modChan c f).chanConds = s.chanConds := rfl
@[simp] theorem State.modChan_errMask (c : Chan) (f : Channel → Channel) : (s.modChan c f).errMask = s.errMask := rfl
@[simp] theorem State.modChan_warnMask (c : Chan) (f : Channel → Channel) : (s.modChan c f).warnMask = s.warnMask := rfl
@[simp] theorem State.modChan_verify (c : Chan) (f : Channel → Channel) : (s.modChan c f).verify = s.verify := rfl
@[simp] theorem State.modChan_peek (c : Chan) (f : Channel → Channel) : (s.modChan c f).peek = s.peek := rfl
@[simp] theorem State.modChan_save (c : Chan) (f : Channel → Channel) : (s.modChan c f).save = s.save := rfl
@[simp] theorem State.modChan_restart (c : Chan) (f : Channel → Channel) : (s.modChan c f).restart = s.restart := rfl

/-! ### modAsm -/

@[simp] theorem State.modAsm_pending (c : Chan) (f : Assembler → Assembler) : (s.modAsm c f).pending = s.pending := rfl
@[simp] theorem State.modAsm_handed (c : Chan) (f : Assembler → Assembler) : (s.modAsm c f).handed = s.handed := rfl
@[simp] theorem State.modAsm_startup (c : Chan) (f : Assembler → Assembler) : (s.modAsm c f).startup = s.startup := rfl
@[simp] theorem State.modAsm_cfgMem (c : Chan) (f : Assembler → Assembler) : (s.modAsm c f).cfgMem = s.cfgMem := rfl
@[simp] theorem State.modAsm_port (c : Chan) (f : Assembler → Assembler) : (s.modAsm c f).port = s.port := rfl
@[simp] theorem State.modAsm_ret (c : Chan) (f : Assembler → Assembler) : (s.modAsm c f).ret = s.ret := rfl
@[simp] theorem State.modAsm_asm (c : Chan) (f : Assembler → Assembler) : (s.modAsm c f).asm = s.asm.set c (f s.asm[c]) := rfl
@[simp] theorem State.modAsm_frames (c : Chan) (f : Assembler → Assembler) : (s.modAsm c f).frames = s.frames := rfl
@[simp] theorem State.modAsm_coder (c : Chan) (f : Assembler → Assembler) : (s.modAsm c f).coder = s.coder := rfl
@[simp] theorem State.modAsm_ctx (c : Chan) (f : Assembler → Assembler) : (s.modAsm c f).ctx = s.ctx := rfl
@[simp] theorem State.modAsm_profiles (c : Chan) (f : Assembler → Assembler) : (s.modAsm c f).profiles = s.profiles := rfl
@[simp] theorem State.modAsm_chans (c : Chan) (f : Assembler → Assembler) : (s.modAsm c f).chans = s.chans := rfl
@[simp] theorem State.modAsm_letters (c : Chan) (f : Assembler → Assembler) : (s.modAsm c f).letters = s.letters := rfl
@[simp] theorem State.modAsm_letterNo (c : Chan) (f : Assembler → Assembler) : (s.modAsm c f).letterNo = s.letterNo := rfl
@[simp] theorem State.modAsm_takes (c : Chan) (f : Assembler → Assembler) : (s.modAsm c f).takes = s.takes := rfl
@[simp] theorem State.modAsm_writer (c : Chan) (f : Assembler → Assembler) : (s.modAsm c f).writer = s.writer := rfl
@[simp] theorem State.modAsm_stretch (c : Chan) (f : Assembler → Assembler) : (s.modAsm c f).stretch = s.stretch := rfl
@[simp] theorem State.modAsm_reports (c : Chan) (f : Assembler → Assembler) : (s.modAsm c f).reports = s.reports := rfl
@[simp] theorem State.modAsm_store (c : Chan) (f : Assembler → Assembler) : (s.modAsm c f).store = s.store := rfl
@[simp] theorem State.modAsm_ctl (c : Chan) (f : Assembler → Assembler) : (s.modAsm c f).ctl = s.ctl := rfl
@[simp] theorem State.modAsm_emitter (c : Chan) (f : Assembler → Assembler) : (s.modAsm c f).emitter = s.emitter := rfl
@[simp] theorem State.modAsm_steps (c : Chan) (f : Assembler → Assembler) : (s.modAsm c f).steps = s.steps := rfl
@[simp] theorem State.modAsm_pool (c : Chan) (f : Assembler → Assembler) : (s.modAsm c f).pool = s.pool := rfl
@[simp] theorem State.modAsm_hold (c : Chan) (f : Assembler → Assembler) : (s.modAsm c f).hold = s.hold := rfl
@[simp] theorem State.modAsm_dev (c : Chan) (f : Assembler → Assembler) : (s.modAsm c f).dev = s.dev := rfl
@[simp] theorem State.modAsm_chanConds (c : Chan) (f : Assembler → Assembler) : (s.modAsm c f).chanConds = s.chanConds := rfl
@[simp] theorem State.modAsm_errMask (c : Chan) (f : Assembler → Assembler) : (s.modAsm c f).errMask = s.errMask := rfl
@[simp] theorem State.modAsm_warnMask (c : Chan) (f : Assembler → Assembler) : (s.modAsm c f).warnMask = s.warnMask := rfl
@[simp] theorem State.modAsm_verify (c : Chan) (f : Assembler → Assembler) : (s.modAsm c f).verify = s.verify := rfl
@[simp] theorem State.modAsm_peek (c : Chan) (f : Assembler → Assembler) : (s.modAsm c f).peek = s.peek := rfl
@[simp] theorem State.modAsm_save (c : Chan) (f : Assembler → Assembler) : (s.modAsm c f).save = s.save := rfl
@[simp] theorem State.modAsm_restart (c : Chan) (f : Assembler → Assembler) : (s.modAsm c f).restart = s.restart := rfl

/-! ### modCtx -/

@[simp] theorem State.modCtx_pending (c : Chan) (f : CoderCtx → CoderCtx) : (s.modCtx c f).pending = s.pending := rfl
@[simp] theorem State.modCtx_handed (c : Chan) (f : CoderCtx → CoderCtx) : (s.modCtx c f).handed = s.handed := rfl
@[simp] theorem State.modCtx_startup (c : Chan) (f : CoderCtx → CoderCtx) : (s.modCtx c f).startup = s.startup := rfl
@[simp] theorem State.modCtx_cfgMem (c : Chan) (f : CoderCtx → CoderCtx) : (s.modCtx c f).cfgMem = s.cfgMem := rfl
@[simp] theorem State.modCtx_port (c : Chan) (f : CoderCtx → CoderCtx) : (s.modCtx c f).port = s.port := rfl
@[simp] theorem State.modCtx_ret (c : Chan) (f : CoderCtx → CoderCtx) : (s.modCtx c f).ret = s.ret := rfl
@[simp] theorem State.modCtx_asm (c : Chan) (f : CoderCtx → CoderCtx) : (s.modCtx c f).asm = s.asm := rfl
@[simp] theorem State.modCtx_frames (c : Chan) (f : CoderCtx → CoderCtx) : (s.modCtx c f).frames = s.frames := rfl
@[simp] theorem State.modCtx_coder (c : Chan) (f : CoderCtx → CoderCtx) : (s.modCtx c f).coder = s.coder := rfl
@[simp] theorem State.modCtx_ctx (c : Chan) (f : CoderCtx → CoderCtx) : (s.modCtx c f).ctx = s.ctx.set c (f s.ctx[c]) := rfl
@[simp] theorem State.modCtx_profiles (c : Chan) (f : CoderCtx → CoderCtx) : (s.modCtx c f).profiles = s.profiles := rfl
@[simp] theorem State.modCtx_chans (c : Chan) (f : CoderCtx → CoderCtx) : (s.modCtx c f).chans = s.chans := rfl
@[simp] theorem State.modCtx_letters (c : Chan) (f : CoderCtx → CoderCtx) : (s.modCtx c f).letters = s.letters := rfl
@[simp] theorem State.modCtx_letterNo (c : Chan) (f : CoderCtx → CoderCtx) : (s.modCtx c f).letterNo = s.letterNo := rfl
@[simp] theorem State.modCtx_takes (c : Chan) (f : CoderCtx → CoderCtx) : (s.modCtx c f).takes = s.takes := rfl
@[simp] theorem State.modCtx_writer (c : Chan) (f : CoderCtx → CoderCtx) : (s.modCtx c f).writer = s.writer := rfl
@[simp] theorem State.modCtx_stretch (c : Chan) (f : CoderCtx → CoderCtx) : (s.modCtx c f).stretch = s.stretch := rfl
@[simp] theorem State.modCtx_reports (c : Chan) (f : CoderCtx → CoderCtx) : (s.modCtx c f).reports = s.reports := rfl
@[simp] theorem State.modCtx_store (c : Chan) (f : CoderCtx → CoderCtx) : (s.modCtx c f).store = s.store := rfl
@[simp] theorem State.modCtx_ctl (c : Chan) (f : CoderCtx → CoderCtx) : (s.modCtx c f).ctl = s.ctl := rfl
@[simp] theorem State.modCtx_emitter (c : Chan) (f : CoderCtx → CoderCtx) : (s.modCtx c f).emitter = s.emitter := rfl
@[simp] theorem State.modCtx_steps (c : Chan) (f : CoderCtx → CoderCtx) : (s.modCtx c f).steps = s.steps := rfl
@[simp] theorem State.modCtx_pool (c : Chan) (f : CoderCtx → CoderCtx) : (s.modCtx c f).pool = s.pool := rfl
@[simp] theorem State.modCtx_hold (c : Chan) (f : CoderCtx → CoderCtx) : (s.modCtx c f).hold = s.hold := rfl
@[simp] theorem State.modCtx_dev (c : Chan) (f : CoderCtx → CoderCtx) : (s.modCtx c f).dev = s.dev := rfl
@[simp] theorem State.modCtx_chanConds (c : Chan) (f : CoderCtx → CoderCtx) : (s.modCtx c f).chanConds = s.chanConds := rfl
@[simp] theorem State.modCtx_errMask (c : Chan) (f : CoderCtx → CoderCtx) : (s.modCtx c f).errMask = s.errMask := rfl
@[simp] theorem State.modCtx_warnMask (c : Chan) (f : CoderCtx → CoderCtx) : (s.modCtx c f).warnMask = s.warnMask := rfl
@[simp] theorem State.modCtx_verify (c : Chan) (f : CoderCtx → CoderCtx) : (s.modCtx c f).verify = s.verify := rfl
@[simp] theorem State.modCtx_peek (c : Chan) (f : CoderCtx → CoderCtx) : (s.modCtx c f).peek = s.peek := rfl
@[simp] theorem State.modCtx_save (c : Chan) (f : CoderCtx → CoderCtx) : (s.modCtx c f).save = s.save := rfl
@[simp] theorem State.modCtx_restart (c : Chan) (f : CoderCtx → CoderCtx) : (s.modCtx c f).restart = s.restart := rfl

/-! ### modLetter -/

@[simp] theorem State.modLetter_pending (k : Slot) (f : Letter → Letter) : (s.modLetter k f).pending = s.pending := rfl
@[simp] theorem State.modLetter_handed (k : Slot) (f : Letter → Letter) : (s.modLetter k f).handed = s.handed := rfl
@[simp] theorem State.modLetter_startup (k : Slot) (f : Letter → Letter) : (s.modLetter k f).startup = s.startup := rfl
@[simp] theorem State.modLetter_cfgMem (k : Slot) (f : Letter → Letter) : (s.modLetter k f).cfgMem = s.cfgMem := rfl
@[simp] theorem State.modLetter_port (k : Slot) (f : Letter → Letter) : (s.modLetter k f).port = s.port := rfl
@[simp] theorem State.modLetter_ret (k : Slot) (f : Letter → Letter) : (s.modLetter k f).ret = s.ret := rfl
@[simp] theorem State.modLetter_asm (k : Slot) (f : Letter → Letter) : (s.modLetter k f).asm = s.asm := rfl
@[simp] theorem State.modLetter_frames (k : Slot) (f : Letter → Letter) : (s.modLetter k f).frames = s.frames := rfl
@[simp] theorem State.modLetter_coder (k : Slot) (f : Letter → Letter) : (s.modLetter k f).coder = s.coder := rfl
@[simp] theorem State.modLetter_ctx (k : Slot) (f : Letter → Letter) : (s.modLetter k f).ctx = s.ctx := rfl
@[simp] theorem State.modLetter_profiles (k : Slot) (f : Letter → Letter) : (s.modLetter k f).profiles = s.profiles := rfl
@[simp] theorem State.modLetter_chans (k : Slot) (f : Letter → Letter) : (s.modLetter k f).chans = s.chans := rfl
@[simp] theorem State.modLetter_letters (k : Slot) (f : Letter → Letter) : (s.modLetter k f).letters = s.letters.set k (s.letters[k].map f) := rfl
@[simp] theorem State.modLetter_letterNo (k : Slot) (f : Letter → Letter) : (s.modLetter k f).letterNo = s.letterNo := rfl
@[simp] theorem State.modLetter_takes (k : Slot) (f : Letter → Letter) : (s.modLetter k f).takes = s.takes := rfl
@[simp] theorem State.modLetter_writer (k : Slot) (f : Letter → Letter) : (s.modLetter k f).writer = s.writer := rfl
@[simp] theorem State.modLetter_stretch (k : Slot) (f : Letter → Letter) : (s.modLetter k f).stretch = s.stretch := rfl
@[simp] theorem State.modLetter_reports (k : Slot) (f : Letter → Letter) : (s.modLetter k f).reports = s.reports := rfl
@[simp] theorem State.modLetter_store (k : Slot) (f : Letter → Letter) : (s.modLetter k f).store = s.store := rfl
@[simp] theorem State.modLetter_ctl (k : Slot) (f : Letter → Letter) : (s.modLetter k f).ctl = s.ctl := rfl
@[simp] theorem State.modLetter_emitter (k : Slot) (f : Letter → Letter) : (s.modLetter k f).emitter = s.emitter := rfl
@[simp] theorem State.modLetter_steps (k : Slot) (f : Letter → Letter) : (s.modLetter k f).steps = s.steps := rfl
@[simp] theorem State.modLetter_pool (k : Slot) (f : Letter → Letter) : (s.modLetter k f).pool = s.pool := rfl
@[simp] theorem State.modLetter_hold (k : Slot) (f : Letter → Letter) : (s.modLetter k f).hold = s.hold := rfl
@[simp] theorem State.modLetter_dev (k : Slot) (f : Letter → Letter) : (s.modLetter k f).dev = s.dev := rfl
@[simp] theorem State.modLetter_chanConds (k : Slot) (f : Letter → Letter) : (s.modLetter k f).chanConds = s.chanConds := rfl
@[simp] theorem State.modLetter_errMask (k : Slot) (f : Letter → Letter) : (s.modLetter k f).errMask = s.errMask := rfl
@[simp] theorem State.modLetter_warnMask (k : Slot) (f : Letter → Letter) : (s.modLetter k f).warnMask = s.warnMask := rfl
@[simp] theorem State.modLetter_verify (k : Slot) (f : Letter → Letter) : (s.modLetter k f).verify = s.verify := rfl
@[simp] theorem State.modLetter_peek (k : Slot) (f : Letter → Letter) : (s.modLetter k f).peek = s.peek := rfl
@[simp] theorem State.modLetter_save (k : Slot) (f : Letter → Letter) : (s.modLetter k f).save = s.save := rfl
@[simp] theorem State.modLetter_restart (k : Slot) (f : Letter → Letter) : (s.modLetter k f).restart = s.restart := rfl

/-! ### setLetter -/

@[simp] theorem State.setLetter_pending (k : Slot) (l : Option Letter) : (s.setLetter k l).pending = s.pending := rfl
@[simp] theorem State.setLetter_handed (k : Slot) (l : Option Letter) : (s.setLetter k l).handed = s.handed := rfl
@[simp] theorem State.setLetter_startup (k : Slot) (l : Option Letter) : (s.setLetter k l).startup = s.startup := rfl
@[simp] theorem State.setLetter_cfgMem (k : Slot) (l : Option Letter) : (s.setLetter k l).cfgMem = s.cfgMem := rfl
@[simp] theorem State.setLetter_port (k : Slot) (l : Option Letter) : (s.setLetter k l).port = s.port := rfl
@[simp] theorem State.setLetter_ret (k : Slot) (l : Option Letter) : (s.setLetter k l).ret = s.ret := rfl
@[simp] theorem State.setLetter_asm (k : Slot) (l : Option Letter) : (s.setLetter k l).asm = s.asm := rfl
@[simp] theorem State.setLetter_frames (k : Slot) (l : Option Letter) : (s.setLetter k l).frames = s.frames := rfl
@[simp] theorem State.setLetter_coder (k : Slot) (l : Option Letter) : (s.setLetter k l).coder = s.coder := rfl
@[simp] theorem State.setLetter_ctx (k : Slot) (l : Option Letter) : (s.setLetter k l).ctx = s.ctx := rfl
@[simp] theorem State.setLetter_profiles (k : Slot) (l : Option Letter) : (s.setLetter k l).profiles = s.profiles := rfl
@[simp] theorem State.setLetter_chans (k : Slot) (l : Option Letter) : (s.setLetter k l).chans = s.chans := rfl
@[simp] theorem State.setLetter_letters (k : Slot) (l : Option Letter) : (s.setLetter k l).letters = s.letters.set k l := rfl
@[simp] theorem State.setLetter_letterNo (k : Slot) (l : Option Letter) : (s.setLetter k l).letterNo = s.letterNo := rfl
@[simp] theorem State.setLetter_takes (k : Slot) (l : Option Letter) : (s.setLetter k l).takes = s.takes := rfl
@[simp] theorem State.setLetter_writer (k : Slot) (l : Option Letter) : (s.setLetter k l).writer = s.writer := rfl
@[simp] theorem State.setLetter_stretch (k : Slot) (l : Option Letter) : (s.setLetter k l).stretch = s.stretch := rfl
@[simp] theorem State.setLetter_reports (k : Slot) (l : Option Letter) : (s.setLetter k l).reports = s.reports := rfl
@[simp] theorem State.setLetter_store (k : Slot) (l : Option Letter) : (s.setLetter k l).store = s.store := rfl
@[simp] theorem State.setLetter_ctl (k : Slot) (l : Option Letter) : (s.setLetter k l).ctl = s.ctl := rfl
@[simp] theorem State.setLetter_emitter (k : Slot) (l : Option Letter) : (s.setLetter k l).emitter = s.emitter := rfl
@[simp] theorem State.setLetter_steps (k : Slot) (l : Option Letter) : (s.setLetter k l).steps = s.steps := rfl
@[simp] theorem State.setLetter_pool (k : Slot) (l : Option Letter) : (s.setLetter k l).pool = s.pool := rfl
@[simp] theorem State.setLetter_hold (k : Slot) (l : Option Letter) : (s.setLetter k l).hold = s.hold := rfl
@[simp] theorem State.setLetter_dev (k : Slot) (l : Option Letter) : (s.setLetter k l).dev = s.dev := rfl
@[simp] theorem State.setLetter_chanConds (k : Slot) (l : Option Letter) : (s.setLetter k l).chanConds = s.chanConds := rfl
@[simp] theorem State.setLetter_errMask (k : Slot) (l : Option Letter) : (s.setLetter k l).errMask = s.errMask := rfl
@[simp] theorem State.setLetter_warnMask (k : Slot) (l : Option Letter) : (s.setLetter k l).warnMask = s.warnMask := rfl
@[simp] theorem State.setLetter_verify (k : Slot) (l : Option Letter) : (s.setLetter k l).verify = s.verify := rfl
@[simp] theorem State.setLetter_peek (k : Slot) (l : Option Letter) : (s.setLetter k l).peek = s.peek := rfl
@[simp] theorem State.setLetter_save (k : Slot) (l : Option Letter) : (s.setLetter k l).save = s.save := rfl
@[simp] theorem State.setLetter_restart (k : Slot) (l : Option Letter) : (s.setLetter k l).restart = s.restart := rfl

/-! ### modTake -/

@[simp] theorem State.modTake_pending (t : TakeId) (f : Take → Take) : (s.modTake t f).pending = s.pending := rfl
@[simp] theorem State.modTake_handed (t : TakeId) (f : Take → Take) : (s.modTake t f).handed = s.handed := rfl
@[simp] theorem State.modTake_startup (t : TakeId) (f : Take → Take) : (s.modTake t f).startup = s.startup := rfl
@[simp] theorem State.modTake_cfgMem (t : TakeId) (f : Take → Take) : (s.modTake t f).cfgMem = s.cfgMem := rfl
@[simp] theorem State.modTake_port (t : TakeId) (f : Take → Take) : (s.modTake t f).port = s.port := rfl
@[simp] theorem State.modTake_ret (t : TakeId) (f : Take → Take) : (s.modTake t f).ret = s.ret := rfl
@[simp] theorem State.modTake_asm (t : TakeId) (f : Take → Take) : (s.modTake t f).asm = s.asm := rfl
@[simp] theorem State.modTake_frames (t : TakeId) (f : Take → Take) : (s.modTake t f).frames = s.frames := rfl
@[simp] theorem State.modTake_coder (t : TakeId) (f : Take → Take) : (s.modTake t f).coder = s.coder := rfl
@[simp] theorem State.modTake_ctx (t : TakeId) (f : Take → Take) : (s.modTake t f).ctx = s.ctx := rfl
@[simp] theorem State.modTake_profiles (t : TakeId) (f : Take → Take) : (s.modTake t f).profiles = s.profiles := rfl
@[simp] theorem State.modTake_chans (t : TakeId) (f : Take → Take) : (s.modTake t f).chans = s.chans := rfl
@[simp] theorem State.modTake_letters (t : TakeId) (f : Take → Take) : (s.modTake t f).letters = s.letters := rfl
@[simp] theorem State.modTake_letterNo (t : TakeId) (f : Take → Take) : (s.modTake t f).letterNo = s.letterNo := rfl
@[simp] theorem State.modTake_takes (t : TakeId) (f : Take → Take) : (s.modTake t f).takes = s.takes.set t (s.takes[t].map f) := rfl
@[simp] theorem State.modTake_writer (t : TakeId) (f : Take → Take) : (s.modTake t f).writer = s.writer := rfl
@[simp] theorem State.modTake_stretch (t : TakeId) (f : Take → Take) : (s.modTake t f).stretch = s.stretch := rfl
@[simp] theorem State.modTake_reports (t : TakeId) (f : Take → Take) : (s.modTake t f).reports = s.reports := rfl
@[simp] theorem State.modTake_store (t : TakeId) (f : Take → Take) : (s.modTake t f).store = s.store := rfl
@[simp] theorem State.modTake_ctl (t : TakeId) (f : Take → Take) : (s.modTake t f).ctl = s.ctl := rfl
@[simp] theorem State.modTake_emitter (t : TakeId) (f : Take → Take) : (s.modTake t f).emitter = s.emitter := rfl
@[simp] theorem State.modTake_steps (t : TakeId) (f : Take → Take) : (s.modTake t f).steps = s.steps := rfl
@[simp] theorem State.modTake_pool (t : TakeId) (f : Take → Take) : (s.modTake t f).pool = s.pool := rfl
@[simp] theorem State.modTake_hold (t : TakeId) (f : Take → Take) : (s.modTake t f).hold = s.hold := rfl
@[simp] theorem State.modTake_dev (t : TakeId) (f : Take → Take) : (s.modTake t f).dev = s.dev := rfl
@[simp] theorem State.modTake_chanConds (t : TakeId) (f : Take → Take) : (s.modTake t f).chanConds = s.chanConds := rfl
@[simp] theorem State.modTake_errMask (t : TakeId) (f : Take → Take) : (s.modTake t f).errMask = s.errMask := rfl
@[simp] theorem State.modTake_warnMask (t : TakeId) (f : Take → Take) : (s.modTake t f).warnMask = s.warnMask := rfl
@[simp] theorem State.modTake_verify (t : TakeId) (f : Take → Take) : (s.modTake t f).verify = s.verify := rfl
@[simp] theorem State.modTake_peek (t : TakeId) (f : Take → Take) : (s.modTake t f).peek = s.peek := rfl
@[simp] theorem State.modTake_save (t : TakeId) (f : Take → Take) : (s.modTake t f).save = s.save := rfl
@[simp] theorem State.modTake_restart (t : TakeId) (f : Take → Take) : (s.modTake t f).restart = s.restart := rfl

/-! ### setTake -/

@[simp] theorem State.setTake_pending (t : TakeId) (o : Option Take) : (s.setTake t o).pending = s.pending := rfl
@[simp] theorem State.setTake_handed (t : TakeId) (o : Option Take) : (s.setTake t o).handed = s.handed := rfl
@[simp] theorem State.setTake_startup (t : TakeId) (o : Option Take) : (s.setTake t o).startup = s.startup := rfl
@[simp] theorem State.setTake_cfgMem (t : TakeId) (o : Option Take) : (s.setTake t o).cfgMem = s.cfgMem := rfl
@[simp] theorem State.setTake_port (t : TakeId) (o : Option Take) : (s.setTake t o).port = s.port := rfl
@[simp] theorem State.setTake_ret (t : TakeId) (o : Option Take) : (s.setTake t o).ret = s.ret := rfl
@[simp] theorem State.setTake_asm (t : TakeId) (o : Option Take) : (s.setTake t o).asm = s.asm := rfl
@[simp] theorem State.setTake_frames (t : TakeId) (o : Option Take) : (s.setTake t o).frames = s.frames := rfl
@[simp] theorem State.setTake_coder (t : TakeId) (o : Option Take) : (s.setTake t o).coder = s.coder := rfl
@[simp] theorem State.setTake_ctx (t : TakeId) (o : Option Take) : (s.setTake t o).ctx = s.ctx := rfl
@[simp] theorem State.setTake_profiles (t : TakeId) (o : Option Take) : (s.setTake t o).profiles = s.profiles := rfl
@[simp] theorem State.setTake_chans (t : TakeId) (o : Option Take) : (s.setTake t o).chans = s.chans := rfl
@[simp] theorem State.setTake_letters (t : TakeId) (o : Option Take) : (s.setTake t o).letters = s.letters := rfl
@[simp] theorem State.setTake_letterNo (t : TakeId) (o : Option Take) : (s.setTake t o).letterNo = s.letterNo := rfl
@[simp] theorem State.setTake_takes (t : TakeId) (o : Option Take) : (s.setTake t o).takes = s.takes.set t o := rfl
@[simp] theorem State.setTake_writer (t : TakeId) (o : Option Take) : (s.setTake t o).writer = s.writer := rfl
@[simp] theorem State.setTake_stretch (t : TakeId) (o : Option Take) : (s.setTake t o).stretch = s.stretch := rfl
@[simp] theorem State.setTake_reports (t : TakeId) (o : Option Take) : (s.setTake t o).reports = s.reports := rfl
@[simp] theorem State.setTake_store (t : TakeId) (o : Option Take) : (s.setTake t o).store = s.store := rfl
@[simp] theorem State.setTake_ctl (t : TakeId) (o : Option Take) : (s.setTake t o).ctl = s.ctl := rfl
@[simp] theorem State.setTake_emitter (t : TakeId) (o : Option Take) : (s.setTake t o).emitter = s.emitter := rfl
@[simp] theorem State.setTake_steps (t : TakeId) (o : Option Take) : (s.setTake t o).steps = s.steps := rfl
@[simp] theorem State.setTake_pool (t : TakeId) (o : Option Take) : (s.setTake t o).pool = s.pool := rfl
@[simp] theorem State.setTake_hold (t : TakeId) (o : Option Take) : (s.setTake t o).hold = s.hold := rfl
@[simp] theorem State.setTake_dev (t : TakeId) (o : Option Take) : (s.setTake t o).dev = s.dev := rfl
@[simp] theorem State.setTake_chanConds (t : TakeId) (o : Option Take) : (s.setTake t o).chanConds = s.chanConds := rfl
@[simp] theorem State.setTake_errMask (t : TakeId) (o : Option Take) : (s.setTake t o).errMask = s.errMask := rfl
@[simp] theorem State.setTake_warnMask (t : TakeId) (o : Option Take) : (s.setTake t o).warnMask = s.warnMask := rfl
@[simp] theorem State.setTake_verify (t : TakeId) (o : Option Take) : (s.setTake t o).verify = s.verify := rfl
@[simp] theorem State.setTake_peek (t : TakeId) (o : Option Take) : (s.setTake t o).peek = s.peek := rfl
@[simp] theorem State.setTake_save (t : TakeId) (o : Option Take) : (s.setTake t o).save = s.save := rfl
@[simp] theorem State.setTake_restart (t : TakeId) (o : Option Take) : (s.setTake t o).restart = s.restart := rfl

/-! ### modWriter -/

@[simp] theorem State.modWriter_pending (f : Writer → Writer) : (s.modWriter f).pending = s.pending := rfl
@[simp] theorem State.modWriter_handed (f : Writer → Writer) : (s.modWriter f).handed = s.handed := rfl
@[simp] theorem State.modWriter_startup (f : Writer → Writer) : (s.modWriter f).startup = s.startup := rfl
@[simp] theorem State.modWriter_cfgMem (f : Writer → Writer) : (s.modWriter f).cfgMem = s.cfgMem := rfl
@[simp] theorem State.modWriter_port (f : Writer → Writer) : (s.modWriter f).port = s.port := rfl
@[simp] theorem State.modWriter_ret (f : Writer → Writer) : (s.modWriter f).ret = s.ret := rfl
@[simp] theorem State.modWriter_asm (f : Writer → Writer) : (s.modWriter f).asm = s.asm := rfl
@[simp] theorem State.modWriter_frames (f : Writer → Writer) : (s.modWriter f).frames = s.frames := rfl
@[simp] theorem State.modWriter_coder (f : Writer → Writer) : (s.modWriter f).coder = s.coder := rfl
@[simp] theorem State.modWriter_ctx (f : Writer → Writer) : (s.modWriter f).ctx = s.ctx := rfl
@[simp] theorem State.modWriter_profiles (f : Writer → Writer) : (s.modWriter f).profiles = s.profiles := rfl
@[simp] theorem State.modWriter_chans (f : Writer → Writer) : (s.modWriter f).chans = s.chans := rfl
@[simp] theorem State.modWriter_letters (f : Writer → Writer) : (s.modWriter f).letters = s.letters := rfl
@[simp] theorem State.modWriter_letterNo (f : Writer → Writer) : (s.modWriter f).letterNo = s.letterNo := rfl
@[simp] theorem State.modWriter_takes (f : Writer → Writer) : (s.modWriter f).takes = s.takes := rfl
@[simp] theorem State.modWriter_writer (f : Writer → Writer) : (s.modWriter f).writer = f s.writer := rfl
@[simp] theorem State.modWriter_stretch (f : Writer → Writer) : (s.modWriter f).stretch = s.stretch := rfl
@[simp] theorem State.modWriter_reports (f : Writer → Writer) : (s.modWriter f).reports = s.reports := rfl
@[simp] theorem State.modWriter_store (f : Writer → Writer) : (s.modWriter f).store = s.store := rfl
@[simp] theorem State.modWriter_ctl (f : Writer → Writer) : (s.modWriter f).ctl = s.ctl := rfl
@[simp] theorem State.modWriter_emitter (f : Writer → Writer) : (s.modWriter f).emitter = s.emitter := rfl
@[simp] theorem State.modWriter_steps (f : Writer → Writer) : (s.modWriter f).steps = s.steps := rfl
@[simp] theorem State.modWriter_pool (f : Writer → Writer) : (s.modWriter f).pool = s.pool := rfl
@[simp] theorem State.modWriter_hold (f : Writer → Writer) : (s.modWriter f).hold = s.hold := rfl
@[simp] theorem State.modWriter_dev (f : Writer → Writer) : (s.modWriter f).dev = s.dev := rfl
@[simp] theorem State.modWriter_chanConds (f : Writer → Writer) : (s.modWriter f).chanConds = s.chanConds := rfl
@[simp] theorem State.modWriter_errMask (f : Writer → Writer) : (s.modWriter f).errMask = s.errMask := rfl
@[simp] theorem State.modWriter_warnMask (f : Writer → Writer) : (s.modWriter f).warnMask = s.warnMask := rfl
@[simp] theorem State.modWriter_verify (f : Writer → Writer) : (s.modWriter f).verify = s.verify := rfl
@[simp] theorem State.modWriter_peek (f : Writer → Writer) : (s.modWriter f).peek = s.peek := rfl
@[simp] theorem State.modWriter_save (f : Writer → Writer) : (s.modWriter f).save = s.save := rfl
@[simp] theorem State.modWriter_restart (f : Writer → Writer) : (s.modWriter f).restart = s.restart := rfl

/-! ### modEmitter -/

@[simp] theorem State.modEmitter_pending (f : Emitter → Emitter) : (s.modEmitter f).pending = s.pending := rfl
@[simp] theorem State.modEmitter_handed (f : Emitter → Emitter) : (s.modEmitter f).handed = s.handed := rfl
@[simp] theorem State.modEmitter_startup (f : Emitter → Emitter) : (s.modEmitter f).startup = s.startup := rfl
@[simp] theorem State.modEmitter_cfgMem (f : Emitter → Emitter) : (s.modEmitter f).cfgMem = s.cfgMem := rfl
@[simp] theorem State.modEmitter_port (f : Emitter → Emitter) : (s.modEmitter f).port = s.port := rfl
@[simp] theorem State.modEmitter_ret (f : Emitter → Emitter) : (s.modEmitter f).ret = s.ret := rfl
@[simp] theorem State.modEmitter_asm (f : Emitter → Emitter) : (s.modEmitter f).asm = s.asm := rfl
@[simp] theorem State.modEmitter_frames (f : Emitter → Emitter) : (s.modEmitter f).frames = s.frames := rfl
@[simp] theorem State.modEmitter_coder (f : Emitter → Emitter) : (s.modEmitter f).coder = s.coder := rfl
@[simp] theorem State.modEmitter_ctx (f : Emitter → Emitter) : (s.modEmitter f).ctx = s.ctx := rfl
@[simp] theorem State.modEmitter_profiles (f : Emitter → Emitter) : (s.modEmitter f).profiles = s.profiles := rfl
@[simp] theorem State.modEmitter_chans (f : Emitter → Emitter) : (s.modEmitter f).chans = s.chans := rfl
@[simp] theorem State.modEmitter_letters (f : Emitter → Emitter) : (s.modEmitter f).letters = s.letters := rfl
@[simp] theorem State.modEmitter_letterNo (f : Emitter → Emitter) : (s.modEmitter f).letterNo = s.letterNo := rfl
@[simp] theorem State.modEmitter_takes (f : Emitter → Emitter) : (s.modEmitter f).takes = s.takes := rfl
@[simp] theorem State.modEmitter_writer (f : Emitter → Emitter) : (s.modEmitter f).writer = s.writer := rfl
@[simp] theorem State.modEmitter_stretch (f : Emitter → Emitter) : (s.modEmitter f).stretch = s.stretch := rfl
@[simp] theorem State.modEmitter_reports (f : Emitter → Emitter) : (s.modEmitter f).reports = s.reports := rfl
@[simp] theorem State.modEmitter_store (f : Emitter → Emitter) : (s.modEmitter f).store = s.store := rfl
@[simp] theorem State.modEmitter_ctl (f : Emitter → Emitter) : (s.modEmitter f).ctl = s.ctl := rfl
@[simp] theorem State.modEmitter_emitter (f : Emitter → Emitter) : (s.modEmitter f).emitter = f s.emitter := rfl
@[simp] theorem State.modEmitter_steps (f : Emitter → Emitter) : (s.modEmitter f).steps = s.steps := rfl
@[simp] theorem State.modEmitter_pool (f : Emitter → Emitter) : (s.modEmitter f).pool = s.pool := rfl
@[simp] theorem State.modEmitter_hold (f : Emitter → Emitter) : (s.modEmitter f).hold = s.hold := rfl
@[simp] theorem State.modEmitter_dev (f : Emitter → Emitter) : (s.modEmitter f).dev = s.dev := rfl
@[simp] theorem State.modEmitter_chanConds (f : Emitter → Emitter) : (s.modEmitter f).chanConds = s.chanConds := rfl
@[simp] theorem State.modEmitter_errMask (f : Emitter → Emitter) : (s.modEmitter f).errMask = s.errMask := rfl
@[simp] theorem State.modEmitter_warnMask (f : Emitter → Emitter) : (s.modEmitter f).warnMask = s.warnMask := rfl
@[simp] theorem State.modEmitter_verify (f : Emitter → Emitter) : (s.modEmitter f).verify = s.verify := rfl
@[simp] theorem State.modEmitter_peek (f : Emitter → Emitter) : (s.modEmitter f).peek = s.peek := rfl
@[simp] theorem State.modEmitter_save (f : Emitter → Emitter) : (s.modEmitter f).save = s.save := rfl
@[simp] theorem State.modEmitter_restart (f : Emitter → Emitter) : (s.modEmitter f).restart = s.restart := rfl

/-! ### modCtl -/

@[simp] theorem State.modCtl_pending (f : StoreCtl → StoreCtl) : (s.modCtl f).pending = s.pending := rfl
@[simp] theorem State.modCtl_handed (f : StoreCtl → StoreCtl) : (s.modCtl f).handed = s.handed := rfl
@[simp] theorem State.modCtl_startup (f : StoreCtl → StoreCtl) : (s.modCtl f).startup = s.startup := rfl
@[simp] theorem State.modCtl_cfgMem (f : StoreCtl → StoreCtl) : (s.modCtl f).cfgMem = s.cfgMem := rfl
@[simp] theorem State.modCtl_port (f : StoreCtl → StoreCtl) : (s.modCtl f).port = s.port := rfl
@[simp] theorem State.modCtl_ret (f : StoreCtl → StoreCtl) : (s.modCtl f).ret = s.ret := rfl
@[simp] theorem State.modCtl_asm (f : StoreCtl → StoreCtl) : (s.modCtl f).asm = s.asm := rfl
@[simp] theorem State.modCtl_frames (f : StoreCtl → StoreCtl) : (s.modCtl f).frames = s.frames := rfl
@[simp] theorem State.modCtl_coder (f : StoreCtl → StoreCtl) : (s.modCtl f).coder = s.coder := rfl
@[simp] theorem State.modCtl_ctx (f : StoreCtl → StoreCtl) : (s.modCtl f).ctx = s.ctx := rfl
@[simp] theorem State.modCtl_profiles (f : StoreCtl → StoreCtl) : (s.modCtl f).profiles = s.profiles := rfl
@[simp] theorem State.modCtl_chans (f : StoreCtl → StoreCtl) : (s.modCtl f).chans = s.chans := rfl
@[simp] theorem State.modCtl_letters (f : StoreCtl → StoreCtl) : (s.modCtl f).letters = s.letters := rfl
@[simp] theorem State.modCtl_letterNo (f : StoreCtl → StoreCtl) : (s.modCtl f).letterNo = s.letterNo := rfl
@[simp] theorem State.modCtl_takes (f : StoreCtl → StoreCtl) : (s.modCtl f).takes = s.takes := rfl
@[simp] theorem State.modCtl_writer (f : StoreCtl → StoreCtl) : (s.modCtl f).writer = s.writer := rfl
@[simp] theorem State.modCtl_stretch (f : StoreCtl → StoreCtl) : (s.modCtl f).stretch = s.stretch := rfl
@[simp] theorem State.modCtl_reports (f : StoreCtl → StoreCtl) : (s.modCtl f).reports = s.reports := rfl
@[simp] theorem State.modCtl_store (f : StoreCtl → StoreCtl) : (s.modCtl f).store = s.store := rfl
@[simp] theorem State.modCtl_ctl (f : StoreCtl → StoreCtl) : (s.modCtl f).ctl = f s.ctl := rfl
@[simp] theorem State.modCtl_emitter (f : StoreCtl → StoreCtl) : (s.modCtl f).emitter = s.emitter := rfl
@[simp] theorem State.modCtl_steps (f : StoreCtl → StoreCtl) : (s.modCtl f).steps = s.steps := rfl
@[simp] theorem State.modCtl_pool (f : StoreCtl → StoreCtl) : (s.modCtl f).pool = s.pool := rfl
@[simp] theorem State.modCtl_hold (f : StoreCtl → StoreCtl) : (s.modCtl f).hold = s.hold := rfl
@[simp] theorem State.modCtl_dev (f : StoreCtl → StoreCtl) : (s.modCtl f).dev = s.dev := rfl
@[simp] theorem State.modCtl_chanConds (f : StoreCtl → StoreCtl) : (s.modCtl f).chanConds = s.chanConds := rfl
@[simp] theorem State.modCtl_errMask (f : StoreCtl → StoreCtl) : (s.modCtl f).errMask = s.errMask := rfl
@[simp] theorem State.modCtl_warnMask (f : StoreCtl → StoreCtl) : (s.modCtl f).warnMask = s.warnMask := rfl
@[simp] theorem State.modCtl_verify (f : StoreCtl → StoreCtl) : (s.modCtl f).verify = s.verify := rfl
@[simp] theorem State.modCtl_peek (f : StoreCtl → StoreCtl) : (s.modCtl f).peek = s.peek := rfl
@[simp] theorem State.modCtl_save (f : StoreCtl → StoreCtl) : (s.modCtl f).save = s.save := rfl
@[simp] theorem State.modCtl_restart (f : StoreCtl → StoreCtl) : (s.modCtl f).restart = s.restart := rfl

/-! ### zeroSteps -/

@[simp] theorem State.zeroSteps_pending (k : Slot) : (s.zeroSteps k).pending = s.pending := rfl
@[simp] theorem State.zeroSteps_handed (k : Slot) : (s.zeroSteps k).handed = s.handed := rfl
@[simp] theorem State.zeroSteps_startup (k : Slot) : (s.zeroSteps k).startup = s.startup := rfl
@[simp] theorem State.zeroSteps_cfgMem (k : Slot) : (s.zeroSteps k).cfgMem = s.cfgMem := rfl
@[simp] theorem State.zeroSteps_port (k : Slot) : (s.zeroSteps k).port = s.port := rfl
@[simp] theorem State.zeroSteps_ret (k : Slot) : (s.zeroSteps k).ret = s.ret := rfl
@[simp] theorem State.zeroSteps_asm (k : Slot) : (s.zeroSteps k).asm = s.asm := rfl
@[simp] theorem State.zeroSteps_frames (k : Slot) : (s.zeroSteps k).frames = s.frames := rfl
@[simp] theorem State.zeroSteps_coder (k : Slot) : (s.zeroSteps k).coder = s.coder := rfl
@[simp] theorem State.zeroSteps_ctx (k : Slot) : (s.zeroSteps k).ctx = s.ctx := rfl
@[simp] theorem State.zeroSteps_profiles (k : Slot) : (s.zeroSteps k).profiles = s.profiles := rfl
@[simp] theorem State.zeroSteps_chans (k : Slot) : (s.zeroSteps k).chans = s.chans := rfl
@[simp] theorem State.zeroSteps_letters (k : Slot) : (s.zeroSteps k).letters = s.letters := rfl
@[simp] theorem State.zeroSteps_letterNo (k : Slot) : (s.zeroSteps k).letterNo = s.letterNo := rfl
@[simp] theorem State.zeroSteps_takes (k : Slot) : (s.zeroSteps k).takes = s.takes := rfl
@[simp] theorem State.zeroSteps_writer (k : Slot) : (s.zeroSteps k).writer = s.writer := rfl
@[simp] theorem State.zeroSteps_stretch (k : Slot) : (s.zeroSteps k).stretch = s.stretch := rfl
@[simp] theorem State.zeroSteps_reports (k : Slot) : (s.zeroSteps k).reports = s.reports := rfl
@[simp] theorem State.zeroSteps_store (k : Slot) : (s.zeroSteps k).store = s.store := rfl
@[simp] theorem State.zeroSteps_ctl (k : Slot) : (s.zeroSteps k).ctl = s.ctl := rfl
@[simp] theorem State.zeroSteps_emitter (k : Slot) : (s.zeroSteps k).emitter = s.emitter := rfl
@[simp] theorem State.zeroSteps_steps (k : Slot) : (s.zeroSteps k).steps = s.steps.set k 0 := rfl
@[simp] theorem State.zeroSteps_pool (k : Slot) : (s.zeroSteps k).pool = s.pool := rfl
@[simp] theorem State.zeroSteps_hold (k : Slot) : (s.zeroSteps k).hold = s.hold := rfl
@[simp] theorem State.zeroSteps_dev (k : Slot) : (s.zeroSteps k).dev = s.dev := rfl
@[simp] theorem State.zeroSteps_chanConds (k : Slot) : (s.zeroSteps k).chanConds = s.chanConds := rfl
@[simp] theorem State.zeroSteps_errMask (k : Slot) : (s.zeroSteps k).errMask = s.errMask := rfl
@[simp] theorem State.zeroSteps_warnMask (k : Slot) : (s.zeroSteps k).warnMask = s.warnMask := rfl
@[simp] theorem State.zeroSteps_verify (k : Slot) : (s.zeroSteps k).verify = s.verify := rfl
@[simp] theorem State.zeroSteps_peek (k : Slot) : (s.zeroSteps k).peek = s.peek := rfl
@[simp] theorem State.zeroSteps_save (k : Slot) : (s.zeroSteps k).save = s.save := rfl
@[simp] theorem State.zeroSteps_restart (k : Slot) : (s.zeroSteps k).restart = s.restart := rfl

/-! ### raise -/

@[simp] theorem State.raise_pending (c : Chan) (t : TakeId) (k : ReportKind) : (s.raise c t k).pending = s.pending := rfl
@[simp] theorem State.raise_handed (c : Chan) (t : TakeId) (k : ReportKind) : (s.raise c t k).handed = s.handed := rfl
@[simp] theorem State.raise_startup (c : Chan) (t : TakeId) (k : ReportKind) : (s.raise c t k).startup = s.startup := rfl
@[simp] theorem State.raise_cfgMem (c : Chan) (t : TakeId) (k : ReportKind) : (s.raise c t k).cfgMem = s.cfgMem := rfl
@[simp] theorem State.raise_port (c : Chan) (t : TakeId) (k : ReportKind) : (s.raise c t k).port = s.port := rfl
@[simp] theorem State.raise_ret (c : Chan) (t : TakeId) (k : ReportKind) : (s.raise c t k).ret = s.ret := rfl
@[simp] theorem State.raise_asm (c : Chan) (t : TakeId) (k : ReportKind) : (s.raise c t k).asm = s.asm := rfl
@[simp] theorem State.raise_frames (c : Chan) (t : TakeId) (k : ReportKind) : (s.raise c t k).frames = s.frames := rfl
@[simp] theorem State.raise_coder (c : Chan) (t : TakeId) (k : ReportKind) : (s.raise c t k).coder = s.coder := rfl
@[simp] theorem State.raise_ctx (c : Chan) (t : TakeId) (k : ReportKind) : (s.raise c t k).ctx = s.ctx := rfl
@[simp] theorem State.raise_profiles (c : Chan) (t : TakeId) (k : ReportKind) : (s.raise c t k).profiles = s.profiles := rfl
@[simp] theorem State.raise_chans (c : Chan) (t : TakeId) (k : ReportKind) : (s.raise c t k).chans = s.chans := rfl
@[simp] theorem State.raise_letters (c : Chan) (t : TakeId) (k : ReportKind) : (s.raise c t k).letters = s.letters := rfl
@[simp] theorem State.raise_letterNo (c : Chan) (t : TakeId) (k : ReportKind) : (s.raise c t k).letterNo = s.letterNo := rfl
@[simp] theorem State.raise_takes (c : Chan) (t : TakeId) (k : ReportKind) : (s.raise c t k).takes = s.takes := rfl
@[simp] theorem State.raise_writer (c : Chan) (t : TakeId) (k : ReportKind) : (s.raise c t k).writer = s.writer := rfl
@[simp] theorem State.raise_stretch (c : Chan) (t : TakeId) (k : ReportKind) : (s.raise c t k).stretch = s.stretch := rfl
@[simp] theorem State.raise_reports (c : Chan) (t : TakeId) (k : ReportKind) : (s.raise c t k).reports = s.reports ++ [{ chan := c, take := t, kind := k }] := rfl
@[simp] theorem State.raise_store (c : Chan) (t : TakeId) (k : ReportKind) : (s.raise c t k).store = s.store := rfl
@[simp] theorem State.raise_ctl (c : Chan) (t : TakeId) (k : ReportKind) : (s.raise c t k).ctl = s.ctl := rfl
@[simp] theorem State.raise_emitter (c : Chan) (t : TakeId) (k : ReportKind) : (s.raise c t k).emitter = s.emitter := rfl
@[simp] theorem State.raise_steps (c : Chan) (t : TakeId) (k : ReportKind) : (s.raise c t k).steps = s.steps := rfl
@[simp] theorem State.raise_pool (c : Chan) (t : TakeId) (k : ReportKind) : (s.raise c t k).pool = s.pool := rfl
@[simp] theorem State.raise_hold (c : Chan) (t : TakeId) (k : ReportKind) : (s.raise c t k).hold = s.hold := rfl
@[simp] theorem State.raise_dev (c : Chan) (t : TakeId) (k : ReportKind) : (s.raise c t k).dev = s.dev := rfl
@[simp] theorem State.raise_chanConds (c : Chan) (t : TakeId) (k : ReportKind) : (s.raise c t k).chanConds = s.chanConds := rfl
@[simp] theorem State.raise_errMask (c : Chan) (t : TakeId) (k : ReportKind) : (s.raise c t k).errMask = s.errMask := rfl
@[simp] theorem State.raise_warnMask (c : Chan) (t : TakeId) (k : ReportKind) : (s.raise c t k).warnMask = s.warnMask := rfl
@[simp] theorem State.raise_verify (c : Chan) (t : TakeId) (k : ReportKind) : (s.raise c t k).verify = s.verify := rfl
@[simp] theorem State.raise_peek (c : Chan) (t : TakeId) (k : ReportKind) : (s.raise c t k).peek = s.peek := rfl
@[simp] theorem State.raise_save (c : Chan) (t : TakeId) (k : ReportKind) : (s.raise c t k).save = s.save := rfl
@[simp] theorem State.raise_restart (c : Chan) (t : TakeId) (k : ReportKind) : (s.raise c t k).restart = s.restart := rfl

/-! ### dropReport -/

@[simp] theorem State.dropReport_pending (r : Report) : (s.dropReport r).pending = s.pending := rfl
@[simp] theorem State.dropReport_handed (r : Report) : (s.dropReport r).handed = s.handed := rfl
@[simp] theorem State.dropReport_startup (r : Report) : (s.dropReport r).startup = s.startup := rfl
@[simp] theorem State.dropReport_cfgMem (r : Report) : (s.dropReport r).cfgMem = s.cfgMem := rfl
@[simp] theorem State.dropReport_port (r : Report) : (s.dropReport r).port = s.port := rfl
@[simp] theorem State.dropReport_ret (r : Report) : (s.dropReport r).ret = s.ret := rfl
@[simp] theorem State.dropReport_asm (r : Report) : (s.dropReport r).asm = s.asm := rfl
@[simp] theorem State.dropReport_frames (r : Report) : (s.dropReport r).frames = s.frames := rfl
@[simp] theorem State.dropReport_coder (r : Report) : (s.dropReport r).coder = s.coder := rfl
@[simp] theorem State.dropReport_ctx (r : Report) : (s.dropReport r).ctx = s.ctx := rfl
@[simp] theorem State.dropReport_profiles (r : Report) : (s.dropReport r).profiles = s.profiles := rfl
@[simp] theorem State.dropReport_chans (r : Report) : (s.dropReport r).chans = s.chans := rfl
@[simp] theorem State.dropReport_letters (r : Report) : (s.dropReport r).letters = s.letters := rfl
@[simp] theorem State.dropReport_letterNo (r : Report) : (s.dropReport r).letterNo = s.letterNo := rfl
@[simp] theorem State.dropReport_takes (r : Report) : (s.dropReport r).takes = s.takes := rfl
@[simp] theorem State.dropReport_writer (r : Report) : (s.dropReport r).writer = s.writer := rfl
@[simp] theorem State.dropReport_stretch (r : Report) : (s.dropReport r).stretch = s.stretch := rfl
@[simp] theorem State.dropReport_reports (r : Report) : (s.dropReport r).reports = s.reports.erase r := rfl
@[simp] theorem State.dropReport_store (r : Report) : (s.dropReport r).store = s.store := rfl
@[simp] theorem State.dropReport_ctl (r : Report) : (s.dropReport r).ctl = s.ctl := rfl
@[simp] theorem State.dropReport_emitter (r : Report) : (s.dropReport r).emitter = s.emitter := rfl
@[simp] theorem State.dropReport_steps (r : Report) : (s.dropReport r).steps = s.steps := rfl
@[simp] theorem State.dropReport_pool (r : Report) : (s.dropReport r).pool = s.pool := rfl
@[simp] theorem State.dropReport_hold (r : Report) : (s.dropReport r).hold = s.hold := rfl
@[simp] theorem State.dropReport_dev (r : Report) : (s.dropReport r).dev = s.dev := rfl
@[simp] theorem State.dropReport_chanConds (r : Report) : (s.dropReport r).chanConds = s.chanConds := rfl
@[simp] theorem State.dropReport_errMask (r : Report) : (s.dropReport r).errMask = s.errMask := rfl
@[simp] theorem State.dropReport_warnMask (r : Report) : (s.dropReport r).warnMask = s.warnMask := rfl
@[simp] theorem State.dropReport_verify (r : Report) : (s.dropReport r).verify = s.verify := rfl
@[simp] theorem State.dropReport_peek (r : Report) : (s.dropReport r).peek = s.peek := rfl
@[simp] theorem State.dropReport_save (r : Report) : (s.dropReport r).save = s.save := rfl
@[simp] theorem State.dropReport_restart (r : Report) : (s.dropReport r).restart = s.restart := rfl

/-! ### retireReports -/

@[simp] theorem State.retireReports_pending (t : TakeId) : (s.retireReports t).pending = s.pending := rfl
@[simp] theorem State.retireReports_handed (t : TakeId) : (s.retireReports t).handed = s.handed := rfl
@[simp] theorem State.retireReports_startup (t : TakeId) : (s.retireReports t).startup = s.startup := rfl
@[simp] theorem State.retireReports_cfgMem (t : TakeId) : (s.retireReports t).cfgMem = s.cfgMem := rfl
@[simp] theorem State.retireReports_port (t : TakeId) : (s.retireReports t).port = s.port := rfl
@[simp] theorem State.retireReports_ret (t : TakeId) : (s.retireReports t).ret = s.ret := rfl
@[simp] theorem State.retireReports_asm (t : TakeId) : (s.retireReports t).asm = s.asm := rfl
@[simp] theorem State.retireReports_frames (t : TakeId) : (s.retireReports t).frames = s.frames := rfl
@[simp] theorem State.retireReports_coder (t : TakeId) : (s.retireReports t).coder = s.coder := rfl
@[simp] theorem State.retireReports_ctx (t : TakeId) : (s.retireReports t).ctx = s.ctx := rfl
@[simp] theorem State.retireReports_profiles (t : TakeId) : (s.retireReports t).profiles = s.profiles := rfl
@[simp] theorem State.retireReports_chans (t : TakeId) : (s.retireReports t).chans = s.chans := rfl
@[simp] theorem State.retireReports_letters (t : TakeId) : (s.retireReports t).letters = s.letters := rfl
@[simp] theorem State.retireReports_letterNo (t : TakeId) : (s.retireReports t).letterNo = s.letterNo := rfl
@[simp] theorem State.retireReports_takes (t : TakeId) : (s.retireReports t).takes = s.takes := rfl
@[simp] theorem State.retireReports_writer (t : TakeId) : (s.retireReports t).writer = s.writer := rfl
@[simp] theorem State.retireReports_stretch (t : TakeId) : (s.retireReports t).stretch = s.stretch := rfl
@[simp] theorem State.retireReports_reports (t : TakeId) : (s.retireReports t).reports = s.reports.filter fun r => !(r.ofWriting && r.take = t) := rfl
@[simp] theorem State.retireReports_store (t : TakeId) : (s.retireReports t).store = s.store := rfl
@[simp] theorem State.retireReports_ctl (t : TakeId) : (s.retireReports t).ctl = s.ctl := rfl
@[simp] theorem State.retireReports_emitter (t : TakeId) : (s.retireReports t).emitter = s.emitter := rfl
@[simp] theorem State.retireReports_steps (t : TakeId) : (s.retireReports t).steps = s.steps := rfl
@[simp] theorem State.retireReports_pool (t : TakeId) : (s.retireReports t).pool = s.pool := rfl
@[simp] theorem State.retireReports_hold (t : TakeId) : (s.retireReports t).hold = s.hold := rfl
@[simp] theorem State.retireReports_dev (t : TakeId) : (s.retireReports t).dev = s.dev := rfl
@[simp] theorem State.retireReports_chanConds (t : TakeId) : (s.retireReports t).chanConds = s.chanConds := rfl
@[simp] theorem State.retireReports_errMask (t : TakeId) : (s.retireReports t).errMask = s.errMask := rfl
@[simp] theorem State.retireReports_warnMask (t : TakeId) : (s.retireReports t).warnMask = s.warnMask := rfl
@[simp] theorem State.retireReports_verify (t : TakeId) : (s.retireReports t).verify = s.verify := rfl
@[simp] theorem State.retireReports_peek (t : TakeId) : (s.retireReports t).peek = s.peek := rfl
@[simp] theorem State.retireReports_save (t : TakeId) : (s.retireReports t).save = s.save := rfl
@[simp] theorem State.retireReports_restart (t : TakeId) : (s.retireReports t).restart = s.restart := rfl

/-! ### setStretch -/

@[simp] theorem State.setStretch_pending (c : Chan) (x : Option Stretch) : (s.setStretch c x).pending = s.pending := rfl
@[simp] theorem State.setStretch_handed (c : Chan) (x : Option Stretch) : (s.setStretch c x).handed = s.handed := rfl
@[simp] theorem State.setStretch_startup (c : Chan) (x : Option Stretch) : (s.setStretch c x).startup = s.startup := rfl
@[simp] theorem State.setStretch_cfgMem (c : Chan) (x : Option Stretch) : (s.setStretch c x).cfgMem = s.cfgMem := rfl
@[simp] theorem State.setStretch_port (c : Chan) (x : Option Stretch) : (s.setStretch c x).port = s.port := rfl
@[simp] theorem State.setStretch_ret (c : Chan) (x : Option Stretch) : (s.setStretch c x).ret = s.ret := rfl
@[simp] theorem State.setStretch_asm (c : Chan) (x : Option Stretch) : (s.setStretch c x).asm = s.asm := rfl
@[simp] theorem State.setStretch_frames (c : Chan) (x : Option Stretch) : (s.setStretch c x).frames = s.frames := rfl
@[simp] theorem State.setStretch_coder (c : Chan) (x : Option Stretch) : (s.setStretch c x).coder = s.coder := rfl
@[simp] theorem State.setStretch_ctx (c : Chan) (x : Option Stretch) : (s.setStretch c x).ctx = s.ctx := rfl
@[simp] theorem State.setStretch_profiles (c : Chan) (x : Option Stretch) : (s.setStretch c x).profiles = s.profiles := rfl
@[simp] theorem State.setStretch_chans (c : Chan) (x : Option Stretch) : (s.setStretch c x).chans = s.chans := rfl
@[simp] theorem State.setStretch_letters (c : Chan) (x : Option Stretch) : (s.setStretch c x).letters = s.letters := rfl
@[simp] theorem State.setStretch_letterNo (c : Chan) (x : Option Stretch) : (s.setStretch c x).letterNo = s.letterNo := rfl
@[simp] theorem State.setStretch_takes (c : Chan) (x : Option Stretch) : (s.setStretch c x).takes = s.takes := rfl
@[simp] theorem State.setStretch_writer (c : Chan) (x : Option Stretch) : (s.setStretch c x).writer = s.writer := rfl
@[simp] theorem State.setStretch_stretch (c : Chan) (x : Option Stretch) : (s.setStretch c x).stretch = s.stretch.set c x := rfl
@[simp] theorem State.setStretch_reports (c : Chan) (x : Option Stretch) : (s.setStretch c x).reports = s.reports := rfl
@[simp] theorem State.setStretch_store (c : Chan) (x : Option Stretch) : (s.setStretch c x).store = s.store := rfl
@[simp] theorem State.setStretch_ctl (c : Chan) (x : Option Stretch) : (s.setStretch c x).ctl = s.ctl := rfl
@[simp] theorem State.setStretch_emitter (c : Chan) (x : Option Stretch) : (s.setStretch c x).emitter = s.emitter := rfl
@[simp] theorem State.setStretch_steps (c : Chan) (x : Option Stretch) : (s.setStretch c x).steps = s.steps := rfl
@[simp] theorem State.setStretch_pool (c : Chan) (x : Option Stretch) : (s.setStretch c x).pool = s.pool := rfl
@[simp] theorem State.setStretch_hold (c : Chan) (x : Option Stretch) : (s.setStretch c x).hold = s.hold := rfl
@[simp] theorem State.setStretch_dev (c : Chan) (x : Option Stretch) : (s.setStretch c x).dev = s.dev := rfl
@[simp] theorem State.setStretch_chanConds (c : Chan) (x : Option Stretch) : (s.setStretch c x).chanConds = s.chanConds := rfl
@[simp] theorem State.setStretch_errMask (c : Chan) (x : Option Stretch) : (s.setStretch c x).errMask = s.errMask := rfl
@[simp] theorem State.setStretch_warnMask (c : Chan) (x : Option Stretch) : (s.setStretch c x).warnMask = s.warnMask := rfl
@[simp] theorem State.setStretch_verify (c : Chan) (x : Option Stretch) : (s.setStretch c x).verify = s.verify := rfl
@[simp] theorem State.setStretch_peek (c : Chan) (x : Option Stretch) : (s.setStretch c x).peek = s.peek := rfl
@[simp] theorem State.setStretch_save (c : Chan) (x : Option Stretch) : (s.setStretch c x).save = s.save := rfl
@[simp] theorem State.setStretch_restart (c : Chan) (x : Option Stretch) : (s.setStretch c x).restart = s.restart := rfl

/-! ### moveSync -/

@[simp] theorem State.moveSync_pending (x : Sync) (n : Nat) : (s.moveSync x n).pending = s.pending := rfl
@[simp] theorem State.moveSync_handed (x : Sync) (n : Nat) : (s.moveSync x n).handed = s.handed := rfl
@[simp] theorem State.moveSync_startup (x : Sync) (n : Nat) : (s.moveSync x n).startup = s.startup := rfl
@[simp] theorem State.moveSync_cfgMem (x : Sync) (n : Nat) : (s.moveSync x n).cfgMem = s.cfgMem := rfl
@[simp] theorem State.moveSync_port (x : Sync) (n : Nat) : (s.moveSync x n).port = { sync := x, nextHeader := s.port.nextHeader + n } := rfl
@[simp] theorem State.moveSync_ret (x : Sync) (n : Nat) : (s.moveSync x n).ret = s.ret := rfl
@[simp] theorem State.moveSync_asm (x : Sync) (n : Nat) : (s.moveSync x n).asm = s.asm := rfl
@[simp] theorem State.moveSync_frames (x : Sync) (n : Nat) : (s.moveSync x n).frames = s.frames := rfl
@[simp] theorem State.moveSync_coder (x : Sync) (n : Nat) : (s.moveSync x n).coder = s.coder := rfl
@[simp] theorem State.moveSync_ctx (x : Sync) (n : Nat) : (s.moveSync x n).ctx = s.ctx := rfl
@[simp] theorem State.moveSync_profiles (x : Sync) (n : Nat) : (s.moveSync x n).profiles = s.profiles := rfl
@[simp] theorem State.moveSync_chans (x : Sync) (n : Nat) : (s.moveSync x n).chans = s.chans := rfl
@[simp] theorem State.moveSync_letters (x : Sync) (n : Nat) : (s.moveSync x n).letters = s.letters := rfl
@[simp] theorem State.moveSync_letterNo (x : Sync) (n : Nat) : (s.moveSync x n).letterNo = s.letterNo := rfl
@[simp] theorem State.moveSync_takes (x : Sync) (n : Nat) : (s.moveSync x n).takes = s.takes := rfl
@[simp] theorem State.moveSync_writer (x : Sync) (n : Nat) : (s.moveSync x n).writer = s.writer := rfl
@[simp] theorem State.moveSync_stretch (x : Sync) (n : Nat) : (s.moveSync x n).stretch = s.stretch := rfl
@[simp] theorem State.moveSync_reports (x : Sync) (n : Nat) : (s.moveSync x n).reports = s.reports := rfl
@[simp] theorem State.moveSync_store (x : Sync) (n : Nat) : (s.moveSync x n).store = s.store := rfl
@[simp] theorem State.moveSync_ctl (x : Sync) (n : Nat) : (s.moveSync x n).ctl = s.ctl := rfl
@[simp] theorem State.moveSync_emitter (x : Sync) (n : Nat) : (s.moveSync x n).emitter = s.emitter := rfl
@[simp] theorem State.moveSync_steps (x : Sync) (n : Nat) : (s.moveSync x n).steps = s.steps := rfl
@[simp] theorem State.moveSync_pool (x : Sync) (n : Nat) : (s.moveSync x n).pool = s.pool := rfl
@[simp] theorem State.moveSync_hold (x : Sync) (n : Nat) : (s.moveSync x n).hold = s.hold := rfl
@[simp] theorem State.moveSync_dev (x : Sync) (n : Nat) : (s.moveSync x n).dev = s.dev := rfl
@[simp] theorem State.moveSync_chanConds (x : Sync) (n : Nat) : (s.moveSync x n).chanConds = s.chanConds := rfl
@[simp] theorem State.moveSync_errMask (x : Sync) (n : Nat) : (s.moveSync x n).errMask = s.errMask := rfl
@[simp] theorem State.moveSync_warnMask (x : Sync) (n : Nat) : (s.moveSync x n).warnMask = s.warnMask := rfl
@[simp] theorem State.moveSync_verify (x : Sync) (n : Nat) : (s.moveSync x n).verify = s.verify := rfl
@[simp] theorem State.moveSync_peek (x : Sync) (n : Nat) : (s.moveSync x n).peek = s.peek := rfl
@[simp] theorem State.moveSync_save (x : Sync) (n : Nat) : (s.moveSync x n).save = s.save := rfl
@[simp] theorem State.moveSync_restart (x : Sync) (n : Nat) : (s.moveSync x n).restart = s.restart := rfl

end Sys2Proof.Machine
end

