-- ==== Sys2Proof/Laws/Frames.lean ====
section
/-!
SUPPORT. Frames: how they compose, and for each shared operation the items it can change.
-/

namespace Sys2Proof.Machine

set_option Elab.async false

/-! ### Frames in general -/

theorem State.agree_refl (s : State) (p : Part) : s.agree s p := by cases p <;> rfl

theorem State.agree_trans {s t u : State} {p : Part} (h : s.agree t p) (k : t.agree u p) : s.agree u p := by
  cases p <;> exact Eq.trans h k

theorem Frame.refl {ps : List Part} (s : State) : Frame ps s s := fun p _ => s.agree_refl p

theorem Frame.trans {ps : List Part} {s t u : State} (h : Frame ps s t) (k : Frame ps t u) : Frame ps s u :=
  fun p hp => State.agree_trans (h p hp) (k p hp)

/-- The items listed all stand in another list. -/
def within (ps rs : List Part) : Bool := ps.all fun p => rs.contains p

/-- A frame with more items. -/
theorem Frame.widen {ps rs : List Part} {s t : State} (h : Frame ps s t) (sub : within ps rs = true := by decide) :
    Frame rs s t := fun p hp => h p fun hq => hp (by simpa using List.all_eq_true.mp sub p hq)

/-- A further change, of items among those listed. -/
theorem Frame.andThen {qs rs : List Part} {s t u : State} (h : Frame rs s t) (k : Frame qs t u)
    (sub : within qs rs = true := by decide) : Frame rs s u := h.trans (k.widen sub)

theorem Frame.ite {ps : List Part} {s t u : State} {c : Prop} [Decidable c] (h : Frame ps s t) (k : Frame ps s u) :
    Frame ps s (if c then t else u) := by split <;> assumption

/-! ### Updates of single items -/

theorem State.latch_frame (s : State) (d : DevCond) : Frame [.dev] s (s.latch d) := by
  intro p hp; cases p <;> first | exact absurd (by decide) hp | rfl

theorem State.latchCellLoss_frame (s : State) (c : Chan) : Frame [.chanConds] s (s.latchCellLoss c) := by
  intro p hp; cases p <;> first | exact absurd (by decide) hp | rfl

theorem State.latchClip_frame (s : State) (c : Chan) : Frame [.chanConds] s (s.latchClip c) := by
  intro p hp; cases p <;> first | exact absurd (by decide) hp | rfl

theorem State.latchLowLevel_frame (s : State) (c : Chan) : Frame [.chanConds] s (s.latchLowLevel c) := by
  intro p hp; cases p <;> first | exact absurd (by decide) hp | rfl

theorem State.setMasks_frame (s : State) (e w : Byte) : Frame [.errMask, .warnMask] s (s.setMasks e w) := by
  intro p hp; cases p <;> first | exact absurd (by decide) hp | rfl

theorem State.reportDevice_frame (s : State) : Frame [.dev] s s.reportDevice := by
  intro p hp; cases p <;> first | exact absurd (by decide) hp | rfl

theorem State.reportChannel_frame (s : State) (c : Chan) : Frame [.chanConds] s (s.reportChannel c) := by
  intro p hp; cases p <;> first | exact absurd (by decide) hp | rfl

theorem State.reportListed_frame (s : State) : Frame [.chanConds] s s.reportListed := by
  intro p hp; cases p <;> first | exact absurd (by decide) hp | rfl

theorem State.clearDevice_frame (s : State) (x : BitVec 16) : Frame [.dev] s (s.clearDevice x) := by
  intro p hp; cases p <;> first | exact absurd (by decide) hp | rfl

theorem State.modChanConds_frame (s : State) (c : Chan) (f : ChanConds → ChanConds) : Frame [.chanConds] s (s.modChanConds c f) := by
  intro p hp; cases p <;> first | exact absurd (by decide) hp | rfl

theorem State.changeStore_frame (s : State) (x : List Host.Cell) : Frame [.store] s (s.changeStore x) := by
  intro p hp; cases p <;> first | exact absurd (by decide) hp | rfl

theorem State.changeConfig_frame (s : State) (x : List Host.Cell) : Frame [.cfgMem] s (s.changeConfig x) := by
  intro p hp; cases p <;> first | exact absurd (by decide) hp | rfl

theorem State.takeCell_frame (s : State) (i : Instr) : Frame [.handed] s (s.takeCell i) := by
  intro p hp; cases p <;> first | exact absurd (by decide) hp | rfl

theorem State.withPending_frame (s : State) (q : List Instr) : Frame [.pending] s (s.withPending q) := by
  intro p hp; cases p <;> first | exact absurd (by decide) hp | rfl

theorem State.modChan_frame (s : State) (c : Chan) (f : Channel → Channel) : Frame [.chans] s (s.modChan c f) := by
  intro p hp; cases p <;> first | exact absurd (by decide) hp | rfl

theorem State.modAsm_frame (s : State) (c : Chan) (f : Assembler → Assembler) : Frame [.asm] s (s.modAsm c f) := by
  intro p hp; cases p <;> first | exact absurd (by decide) hp | rfl

theorem State.modCtx_frame (s : State) (c : Chan) (f : CoderCtx → CoderCtx) : Frame [.ctx] s (s.modCtx c f) := by
  intro p hp; cases p <;> first | exact absurd (by decide) hp | rfl

theorem State.modLetter_frame (s : State) (k : Slot) (f : Letter → Letter) : Frame [.letters] s (s.modLetter k f) := by
  intro p hp; cases p <;> first | exact absurd (by decide) hp | rfl

theorem State.setLetter_frame (s : State) (k : Slot) (l : Option Letter) : Frame [.letters] s (s.setLetter k l) := by
  intro p hp; cases p <;> first | exact absurd (by decide) hp | rfl

theorem State.modTake_frame (s : State) (t : TakeId) (f : Take → Take) : Frame [.takes] s (s.modTake t f) := by
  intro p hp; cases p <;> first | exact absurd (by decide) hp | rfl

theorem State.setTake_frame (s : State) (t : TakeId) (o : Option Take) : Frame [.takes] s (s.setTake t o) := by
  intro p hp; cases p <;> first | exact absurd (by decide) hp | rfl

theorem State.modWriter_frame (s : State) (f : Writer → Writer) : Frame [.writer] s (s.modWriter f) := by
  intro p hp; cases p <;> first | exact absurd (by decide) hp | rfl

theorem State.modEmitter_frame (s : State) (f : Emitter → Emitter) : Frame [.emitter] s (s.modEmitter f) := by
  intro p hp; cases p <;> first | exact absurd (by decide) hp | rfl

theorem State.modCtl_frame (s : State) (f : StoreCtl → StoreCtl) : Frame [.ctl] s (s.modCtl f) := by
  intro p hp; cases p <;> first | exact absurd (by decide) hp | rfl

theorem State.zeroSteps_frame (s : State) (k : Slot) : Frame [.steps] s (s.zeroSteps k) := by
  intro p hp; cases p <;> first | exact absurd (by decide) hp | rfl

theorem State.raise_frame (s : State) (c : Chan) (t : TakeId) (k : ReportKind) : Frame [.reports] s (s.raise c t k) := by
  intro p hp; cases p <;> first | exact absurd (by decide) hp | rfl

theorem State.dropReport_frame (s : State) (r : Report) : Frame [.reports] s (s.dropReport r) := by
  intro p hp; cases p <;> first | exact absurd (by decide) hp | rfl

theorem State.retireReports_frame (s : State) (t : TakeId) : Frame [.reports] s (s.retireReports t) := by
  intro p hp; cases p <;> first | exact absurd (by decide) hp | rfl

theorem State.setStretch_frame (s : State) (c : Chan) (x : Option Stretch) : Frame [.stretch] s (s.setStretch c x) := by
  intro p hp; cases p <;> first | exact absurd (by decide) hp | rfl

theorem State.moveSync_frame (s : State) (x : Sync) (n : Nat) : Frame [.port] s (s.moveSync x n) := by
  intro p hp; cases p <;> first | exact absurd (by decide) hp | rfl

theorem State.inHand_frame (s : State) (h : Hand) : Frame [.writer] s (s.inHand h) := by
  intro p hp; cases p <;> first | exact absurd (by decide) hp | rfl

theorem State.letGo_frame (s : State) (b : Bool) : Frame [.writer] s (s.letGo b) := by
  intro p hp; cases p <;> first | exact absurd (by decide) hp | rfl

theorem State.ageOthers_frame (s : State) (w : Slot) (e : Nat) : Frame [.letters, .steps] s (s.ageOthers w e) := by
  intro p hp; unfold State.ageOthers; cases p <;> first | exact absurd (by decide) hp | exact Eq.refl _

theorem State.beginCell_frame (s : State) (l : Letter) : Frame [.pool, .emitter] s (s.beginCell l) := by
  intro p hp; cases p <;> first | exact absurd (by decide) hp | rfl

theorem State.beginAbort_frame (s : State) (a : AbortClose) : Frame [.pool, .emitter] s (s.beginAbort a) := by
  intro p hp; cases p <;> first | exact absurd (by decide) hp | rfl

theorem State.toIdle_frame (s : State) (c : Chan) : Frame [.chans] s (s.toIdle c) := by
  intro p hp; cases p <;> first | exact absurd (by decide) hp | rfl

theorem State.toStopped_frame (s : State) (c : Chan) : Frame [.chans] s (s.toStopped c) := by
  intro p hp; cases p <;> first | exact absurd (by decide) hp | rfl

theorem State.setPending_frame (s : State) (c : Chan) (p : PendingAction) : Frame [.chans] s (s.setPending c p) := by
  intro p hp; cases p <;> first | exact absurd (by decide) hp | rfl

theorem State.startIdleTimer_frame (s : State) (c : Chan) : Frame [.chans] s (s.startIdleTimer c) := by
  intro p hp; cases p <;> first | exact absurd (by decide) hp | rfl

theorem State.expectAfter_frame (s : State) (c : Chan) (q : BitVec 4) : Frame [.asm] s (s.expectAfter c q) := by
  intro p hp; cases p <;> first | exact absurd (by decide) hp | rfl

theorem State.addRef_frame (s : State) (t : TakeId) : Frame [.takes] s (s.addRef t) := by
  intro p hp; cases p <;> first | exact absurd (by decide) hp | rfl

theorem State.flagWriteFault_frame (s : State) (k : Slot) : Frame [.letters] s (s.flagWriteFault k) := by
  intro p hp; cases p <;> first | exact absurd (by decide) hp | rfl

theorem State.ask_frame (s : State) (a : Access) : Frame [.ctl] s (s.ask a) := by
  intro p hp; cases p <;> first | exact absurd (by decide) hp | rfl

theorem State.endAccess_frame (s : State) : Frame [.ctl] s s.endAccess := by
  intro p hp; cases p <;> first | exact absurd (by decide) hp | rfl

theorem State.closeFault_frame (s : State) (l : Letter) : Frame [.emitter] s (s.closeFault l) := by
  intro p hp; cases p <;> first | exact absurd (by decide) hp | rfl

theorem State.writeProfile_frame (s : State) (p : ProfileId) (pf : Profile) : Frame [.profiles, .ctx] s (s.writeProfile p pf) := by
  intro p hp; unfold State.writeProfile; cases p <;> first | exact absurd (by decide) hp | exact Eq.refl _


theorem State.performWrite_frame (s : State) (a : Access) : Frame [.store] s (s.performWrite a) := by
  unfold State.performWrite; split
  · intro p hp; cases p <;> first | exact absurd (by decide) hp | rfl
  · exact .refl s

theorem State.performMarked_frame (s : State) (a : Access) (b : List Bool) : Frame [.store] s (s.performMarked a b) := by
  unfold State.performMarked; split
  · intro p hp; cases p <;> first | exact absurd (by decide) hp | rfl
  · exact .refl s

/-! ### The return path -/

theorem State.startSend_frame (s : State) : Frame [.ret] s s.startSend := by
  unfold State.startSend; split
  · intro p hp; cases p <;> first | exact absurd (by decide) hp | rfl
  · exact .refl s

theorem State.offer_frame (s : State) (ch : Fin 25) (k u : Nat) (b : List Byte) :
    Frame [.ret, .dev] s (s.offer ch k u b) := by
  have base : ∀ r : ReturnPath, Frame [.ret, .dev] s { s with ret := r } := by
    intro r p hp; cases p <;> first | exact absurd (by decide) hp | rfl
  unfold State.offer; extract_lets; split
  · exact (base _).andThen (State.startSend_frame _)
  · exact (base _).andThen (State.latch_frame _ _)

theorem State.ackWith_frame (s : State) (c : Chan) (code : Byte) (r : AckResult) (x y z : Nat) :
    Frame [.ret, .dev] s (s.ackWith c code r x y z) := s.offer_frame _ _ _ _

theorem State.ack_frame (s : State) (c : Chan) (code : Byte) (r : AckResult) :
    Frame [.ret, .dev] s (s.ack c code r) := s.offer_frame _ _ _ _

theorem State.offerState_frame (s : State) (c : Chan) (r : StateReport) (x y : Nat) :
    Frame [.ret, .dev] s (s.offerState c r x y) := s.offer_frame _ _ _ _

theorem State.reply_frame (s : State) (tag code : Byte) (r : ReplyResult) (b : List Byte) :
    Frame [.ret, .dev] s (s.reply tag code r b) := s.offer_frame _ _ _ _

/-! ### Takes and letters -/

theorem State.freeIfDone_frame (s : State) (t : TakeId) : Frame [.takes, .writer] s (s.freeIfDone t) := by
  unfold State.freeIfDone
  split
  · split
    · split
      · exact (State.setTake_frame s _ _).widen
      · exact .ite (.refl s) ((State.modWriter_frame s _).widen)
    · exact .refl s
  · exact .refl s

theorem State.dropRef_frame (s : State) (t : TakeId) : Frame [.takes, .writer, .reports] s (s.dropRef t) := by
  unfold State.dropRef
  split
  · exact .ite ((((State.setTake_frame s _ _).widen).andThen (State.retireReports_frame _ _)).andThen
      (State.freeIfDone_frame _ _)) ((State.setTake_frame s _ _).widen)
  · exact .refl s

theorem State.dropRefs_frame (s : State) (ts : List TakeId) :
    Frame [.takes, .writer, .reports] s (s.dropRefs ts) := by
  induction ts generalizing s with
  | nil => exact .refl s
  | cons t rest ih => exact (s.dropRef_frame t).trans (ih _)

theorem State.closeTake_frame (s : State) (t : TakeId) : Frame [.takes, .writer, .reports] s (s.closeTake t) := by
  unfold State.closeTake
  split
  · split
    · extract_lets asks closed
      have h : Frame [.takes, .writer, .reports] s closed :=
        ((State.setTake_frame s _ _).widen).andThen (State.retireReports_frame _ _)
      exact Frame.andThen (.ite (h.andThen (State.modWriter_frame _ _)) h) (State.freeIfDone_frame _ _)
    · exact .refl s
  · exact .refl s

theorem State.clearCont_frame (s : State) (c : Chan) : Frame [.chans, .takes, .writer, .reports] s (s.clearCont c) := by
  unfold State.clearCont
  split
  · exact ((State.modChan_frame s _ _).widen).andThen (State.closeTake_frame _ _)
  · exact (State.modChan_frame s _ _).widen

theorem State.openLetterIn_frame (s : State) (c : Chan) (k : Slot) :
    Frame [.letters, .letterNo, .chans, .ctx] s (s.openLetterIn c k) := by
  intro p hp; cases p <;> first | exact absurd (by decide) hp | rfl

theorem State.freeLetter_frame (s : State) (k : Slot) :
    Frame [.letters, .takes, .writer, .reports] s (s.freeLetter k) := by
  unfold State.freeLetter
  split
  · exact ((s.dropRefs_frame _).widen).andThen (State.setLetter_frame _ _ _)
  · exact .refl s

theorem State.queueLetter_frame (s : State) (k : Slot) (f : Letter → Letter) :
    Frame [.letters, .steps, .emitter] s (s.queueLetter k f) := by
  intro p hp; cases p <;> first | exact absurd (by decide) hp | rfl

theorem State.submitLetter_frame (s : State) (c : Chan) (p : Fin 4) (u : Bool) :
    Frame [.chans, .takes, .writer, .reports, .letters, .steps, .emitter] s (s.submitLetter c p u) := by
  unfold State.submitLetter
  refine Frame.andThen (Frame.trans ((s.clearCont_frame c).widen) ?_) (State.toIdle_frame _ _)
  split
  · exact .ite ((State.freeLetter_frame _ _).widen) ((State.queueLetter_frame _ _ _).widen)
  · exact .refl _

theorem State.recordStart_frame (s : State) (c : Chan) (k : Slot) (t : TakeId) :
    Frame [.takes, .letters, .ctx] s (s.recordStart c k t) := by
  unfold State.recordStart
  extract_lets ch m new issued counted
  have h : Frame [.takes, .letters, .ctx] s counted := by
    show Frame _ _ (match insideTake m ch.cursor with | some u => issued.addRef u | none => issued)
    split
    · exact ((State.setTake_frame s _ _).widen).andThen (State.addRef_frame _ _)
    · exact (State.setTake_frame s _ _).widen
  exact (h.andThen (State.modLetter_frame _ _ _)).andThen (State.modCtx_frame _ _ _)

theorem State.dropEmptySegment_frame (s : State) (c : Chan) (t : TakeId) :
    Frame [.letters, .takes, .writer, .reports] s (s.dropEmptySegment c t) := by
  unfold State.dropEmptySegment
  split
  · split
    · exact .ite (((State.modLetter_frame s _ _).widen).andThen (State.dropRef_frame _ _)) (.refl s)
    · exact .refl s
  · exact .refl s

theorem State.commit_frame (s : State) (c : Chan) (t : TakeId) (b : Bool) :
    Frame [.letters, .chans, .takes, .writer, .reports] s (s.commit c t b) := by
  have h (k : Slot) (l : Letter) (f : Channel → Channel) :
      Frame [.letters, .chans, .takes, .writer, .reports] s ((s.setLetter k (some l)).modChan c f) :=
    ((State.setLetter_frame s _ _).widen).andThen (State.modChan_frame _ _ _)
  unfold State.commit
  split
  · split
    · dsimp only
      split
      · exact .ite ((h _ _ _).andThen (State.dropRef_frame _ _)) (h _ _ _)
      · exact h _ _ _
    · exact .refl s
  · exact .refl s

theorem State.eraseFrames_frame (s : State) (c : Chan) (m : Nat) :
    Frame [.letters, .takes, .writer, .reports] s (s.eraseFrames c m) := by
  unfold State.eraseFrames
  split
  · split
    · extract_lets p edited split
      have h : Frame [.letters, .takes, .writer, .reports] s split := by
        show Frame _ _ (match splitTake 0 p (p + m) _ with | some t => edited.addRef t | none => edited)
        split
        · exact ((State.setLetter_frame s _ _).widen).andThen (State.addRef_frame _ _)
        · exact (State.setLetter_frame s _ _).widen
      exact h.andThen (State.dropRefs_frame _ _)
    · exact .refl s
  · exact .refl s

/-! ### The store controller -/

theorem State.lowAfterFall_frame (s : State) : Frame [.ctl, .dev] s s.lowAfterFall := by
  unfold State.lowAfterFall
  exact .ite (((State.modCtl_frame s _).widen).andThen (State.latch_frame _ _)) (.refl s)

theorem State.lowAfterRise_frame (s : State) : Frame [.ctl] s s.lowAfterRise := by
  unfold State.lowAfterRise
  exact .ite (State.modCtl_frame s _) (.refl s)

theorem State.takeFromRing_frame (s : State) : Frame [.ctl, .dev] s s.takeFromRing :=
  ((State.modCtl_frame s _).widen).andThen (State.lowAfterFall_frame _)

theorem State.giveToRing_frame (s : State) : Frame [.ctl] s s.giveToRing :=
  (State.modCtl_frame s _).andThen (State.lowAfterRise_frame _)

theorem State.latchIf_frame (s : State) (b : Bool) (d : DevCond) : Frame [.dev] s (s.latchIf b d) := by
  unfold State.latchIf
  exact .ite (s.latch_frame d) (.refl s)

theorem State.endRebuild_frame (s : State) : Frame [.ctl, .dev] s s.endRebuild :=
  ((State.modCtl_frame s _).widen).andThen (State.latchIf_frame _ _ _)

/-! ### The emitter -/

/-- The items that carrying the emitter forward can change. -/
abbrev emitParts : List Part :=
  [.emitter, .letters, .steps, .ctl, .dev, .pool, .takes, .writer, .reports, .ret]

theorem State.pick_frame (s : State) (w : Slot × Nat × Nat) : Frame [.letters, .steps, .emitter] s (s.pick w) := by
  unfold State.pick
  split
  · exact (((s.ageOthers_frame _ _).widen).andThen (State.modLetter_frame _ _ _)).andThen
      (State.modEmitter_frame _ _)
  · exact .refl s

theorem State.askBlock_frame (s : State) (t : TakeId) (b : BlockNo) (first : Nat) :
    Frame [.emitter, .ctl] s (s.askBlock t b first) :=
  ((State.modEmitter_frame s _).widen).andThen (State.ask_frame _ _)

theorem State.shortfall_frame (s : State) (l : Letter) : Frame [.dev, .emitter] s (s.shortfall l) :=
  ((s.latch_frame _).widen).andThen (State.closeFault_frame _ _)

theorem State.askFirst_frame (s : State) (l : Letter) (t : TakeId) :
    Frame [.emitter, .ctl, .dev] s (s.askFirst l t) := by
  unfold State.askFirst
  split
  · exact (s.askBlock_frame _ _ _).widen
  · exact (s.shortfall_frame l).widen

theorem State.placeFrom_frame (s : State) (l : Letter) (x : Segment) (f : Nat) :
    Frame [.emitter, .ctl, .dev] s (s.placeFrom l x f) := by
  unfold State.placeFrom
  split
  · split
    · split
      · exact (State.modEmitter_frame s _).widen
      · exact .ite ((s.shortfall_frame l).widen) ((s.askBlock_frame _ _ _).widen)
    · exact s.askFirst_frame l _
  · exact s.askFirst_frame l _

theorem State.nextPart_frame (s : State) (l : Letter) : Frame [.emitter] s (s.nextPart l) := by
  unfold State.nextPart
  extract_lets e
  split
  · exact State.modEmitter_frame s _
  · exact .ite (State.modEmitter_frame s _) (State.modEmitter_frame s _)

theorem State.nextRecord_frame (s : State) (l : Letter) : Frame [.emitter, .ctl, .dev] s (s.nextRecord l) := by
  unfold State.nextRecord
  split
  · exact (State.modEmitter_frame s _).widen
  · split
    · exact .ite ((s.nextPart_frame l).widen) (s.placeFrom_frame l _ _)
    · exact (s.nextPart_frame l).widen

theorem State.offerEmitted_frame (s : State) (c : Chan) (n : Nat) : Frame [.ret, .dev] s (s.offerEmitted c n) := by
  unfold State.offerEmitted
  exact .ite (.refl s) (s.offerState_frame _ _ _ _)

theorem State.endLetter_frame (s : State) (k : Slot) (l : Letter) : Frame emitParts s (s.endLetter k l) := by
  unfold State.endLetter
  split
  · exact ((((s.freeLetter_frame k).widen).andThen (State.zeroSteps_frame _ _)).andThen
      (State.offerEmitted_frame _ _ _)).andThen (State.modEmitter_frame _ _)
  · exact ((State.modLetter_frame s _ _).widen).andThen (State.modEmitter_frame _ _)

theorem State.emitStep_frame {s t : State} (h : s.emitStep = some t) : Frame emitParts s t := by
  unfold State.emitStep at h
  split at h
  · split at h
    · cases h
    · obtain ⟨w, -, rfl⟩ := Option.map_eq_some_iff.mp h
      exact (s.pick_frame w).widen
  · obtain ⟨l, -, h⟩ := Option.bind_eq_some_iff.mp h
    split at h <;> cases h
    exact (State.modEmitter_frame s _).widen
  · cases h
  · obtain ⟨k, -, h⟩ := Option.bind_eq_some_iff.mp h
    obtain ⟨l, -, h⟩ := Option.bind_eq_some_iff.mp h
    split at h
    · split at h
      · split at h <;> cases h
        · exact ((s.beginCell_frame l).widen).andThen (State.endLetter_frame _ _ _)
        · exact (s.beginCell_frame l).widen
      · cases h
    · split at h <;> cases h
      · exact (s.nextRecord_frame l).widen
      · exact (State.modEmitter_frame s _).widen
  · split at h
    · obtain ⟨a, -, rfl⟩ := Option.map_eq_some_iff.mp h
      exact (s.beginAbort_frame a).widen
    · cases h

/-- What holds of a state and is kept by everything the emitter can do now holds when it has been carried forward. -/
theorem State.emitRun_keeps {P : State → Prop} (keep : ∀ s t, P s → s.emitStep = some t → P t) (n : Nat) (s : State)
    (h : P s) : P (State.emitRun n s) := by
  induction n generalizing s with
  | zero => exact h
  | succ n ih =>
    unfold State.emitRun
    split
    · exact ih _ (keep _ _ h ‹_›)
    · exact h

/-- What holds of a state and is kept by everything the emitter can do now holds when it has been carried forward. -/
theorem State.emit_keeps {P : State → Prop} (keep : ∀ s t, P s → s.emitStep = some t → P t) {s : State} (h : P s) :
    P s.emit := State.emitRun_keeps keep 512 s h

theorem State.emit_frame (s : State) : Frame emitParts s s.emit :=
  State.emit_keeps (P := fun t => Frame emitParts s t) (fun _ _ h k => h.trans (State.emitStep_frame k)) (.refl s)

/-! ### The verify -/

/-- The items a verify can change. -/
abbrev verifyParts : List Part := .verify :: emitParts

theorem State.setVerify_frame (s : State) (v : Option VerifyCtx) : Frame [.verify] s { s with verify := v } := by
  intro p hp; cases p <;> first | exact absurd (by decide) hp | rfl

theorem State.endVerify_frame (s : State) (v : VerifyCtx) : Frame verifyParts s (s.endVerify v) := by
  unfold State.endVerify
  exact (((((State.modLetter_frame s _ _).widen).andThen (State.setVerify_frame _ _)).andThen
    (State.reply_frame _ _ _ _ _)).andThen (State.emit_frame _))

theorem State.verifyBlock_frame (s : State) (v : VerifyCtx) (t : TakeId) (take : Take) :
    Frame [.verify, .ctl] s (s.verifyBlock v t take) := by
  unfold State.verifyBlock
  exact .ite ((s.setVerify_frame _).widen) (((s.setVerify_frame _).widen).andThen (State.ask_frame _ _))

theorem State.verifyTakes_frame (s : State) (v : VerifyCtx) (ts : List TakeId) :
    Frame verifyParts s (s.verifyTakes v ts) := by
  induction ts with
  | nil => exact s.endVerify_frame _
  | cons t rest ih =>
    unfold State.verifyTakes
    split
    · split
      · exact (s.verifyBlock_frame _ _ _).widen
      · exact ih
    · exact ih

theorem State.resumeVerify_frame (s : State) : Frame verifyParts s s.resumeVerify := by
  unfold State.resumeVerify
  split
  · split
    · split
      · split
        · exact (s.verifyBlock_frame _ _ _).widen
        · exact .refl s
      · exact .refl s
    · exact .refl s
  · exact .refl s

theorem State.verifyBad_frame (s : State) (v : VerifyCtx) (x : BlockTest) : Frame verifyParts s (s.verifyBad v x) :=
  s.verifyTakes_frame _ _

theorem State.verifyGood_frame (s : State) (v : VerifyCtx) (t : TakeId) (b : Bool) (n : BlockNo) (f : Nat) :
    Frame verifyParts s (s.verifyGood v t b n f) := by
  unfold State.verifyGood
  split
  · split
    · exact .ite (s.verifyTakes_frame _ _) (((s.latch_frame _).widen).andThen (State.verifyBad_frame _ _ _))
    · exact (s.verifyBlock_frame _ _ _).widen
  · exact .refl s

/-! ### The take writer -/

/-- The items that work on an item in hand can change, but for a commit. -/
abbrev jobParts : List Part := [.writer, .ctl, .dev, .stretch, .reports]

theorem State.abandonStretch_frame (s : State) (c : Chan) : Frame [.stretch, .writer] s (s.abandonStretch c) :=
  ((s.setStretch_frame _ _).widen).andThen (State.modWriter_frame _ _)

theorem State.reportStretchEnd_frame (s : State) (c : Chan) (t : TakeId) :
    Frame [.stretch, .reports] s (s.reportStretchEnd c t) := by
  unfold State.reportStretchEnd
  exact .ite ((s.setStretch_frame _ _).widen) (((s.setStretch_frame _ _).widen).andThen (State.raise_frame _ _ _ _))

theorem State.stretchFrameDone_frame (s : State) (c : Chan) (t : TakeId) :
    Frame [.stretch, .reports, .writer] s (s.stretchFrameDone c t) := by
  unfold State.stretchFrameDone
  split
  · split
    · split
      · split
        · exact (s.reportStretchEnd_frame c t).widen
        · exact ((s.setStretch_frame _ _).widen).andThen (State.modWriter_frame _ _)
      · exact (s.setStretch_frame _ _).widen
    · exact .refl s
  · exact .refl s

theorem State.endJob_frame (s : State) (j : Job) (how : JobEnd) :
    Frame [.writer, .stretch, .reports] s (s.endJob j how) := by
  unfold State.endJob
  split
  · exact (s.letGo_frame _).widen
  · split
    · exact (s.letGo_frame _).widen
    · exact ((s.letGo_frame _).widen).andThen (State.stretchFrameDone_frame _ _ _)
  · split
    · exact ((s.letGo_frame _).widen).andThen (State.reportStretchEnd_frame _ _ _)
    · exact (s.letGo_frame _).widen

theorem State.stopJob_frame (s : State) (j : Job) (k : ReportKind) :
    Frame [.writer, .stretch, .reports] s (s.stopJob j k) :=
  (((s.raise_frame _ _ _).widen).andThen (State.abandonStretch_frame _ _)).andThen (State.endJob_frame _ _ _)

theorem State.beginWalk_frame (s : State) (x : TakeId × Take × BlockNo) (wrap : WalkPhase → Hand) :
    Frame [.writer, .ctl] s (s.beginWalk x wrap) := by
  unfold State.beginWalk
  exact .ite (((s.inHand_frame _).widen).andThen (State.ask_frame _ _))
    (((s.inHand_frame _).widen).andThen (State.ask_frame _ _))

theorem State.allocateFor_frame (s : State) (j : Job) : Frame jobParts s (s.allocateFor j) := by
  unfold State.allocateFor
  split
  · split
    · exact (s.beginWalk_frame _ _).widen
    · exact ((s.latch_frame _).widen).andThen (State.stopJob_frame _ _ _)
  · exact ((s.inHand_frame _).widen).andThen (State.ask_frame _ _)

theorem State.storeFrame_frame (s : State) (j : Job) : Frame jobParts s (s.storeFrame j) := by
  unfold State.storeFrame
  split
  · exact (s.endJob_frame _ _).widen
  · split
    · exact (s.stopJob_frame _ _).widen
    · split
      · split
        · split
          · exact ((s.inHand_frame _).widen).andThen (State.ask_frame _ _)
          · exact .ite (((s.inHand_frame _).widen).andThen (State.ask_frame _ _)) (s.allocateFor_frame j)
        · exact s.allocateFor_frame j
      · exact (s.endJob_frame _ _).widen

theorem State.frameStored_frame (s : State) (j : Job) :
    Frame [.writer, .ctl, .dev, .stretch, .reports, .takes, .letters, .chans] s (s.frameStored j) := by
  unfold State.frameStored
  split
  · exact (s.endJob_frame _ _).widen
  · extract_lets committed
    have h : Frame [.writer, .ctl, .dev, .stretch, .reports, .takes, .letters, .chans] s committed :=
      ((State.modTake_frame s _ _).widen).andThen (State.commit_frame _ _ _ _)
    split
    · exact h.andThen (State.storeFrame_frame _ _)
    · exact h.andThen (State.endJob_frame _ _ _)

theorem State.handBack_frame (s : State) (j : Job) (b : BlockNo) : Frame [.writer, .ctl] s (s.handBack j b) :=
  ((s.inHand_frame _).widen).andThen (State.ask_frame _ _)

theorem State.linkBlock_frame (s : State) (j : Job) (b : BlockNo) :
    Frame [.writer, .ctl, .dev, .stretch, .reports, .takes] s (s.linkBlock j b) := by
  unfold State.linkBlock
  exact .ite (((State.modTake_frame s _ _).widen).andThen (State.storeFrame_frame _ _)) ((s.handBack_frame j b).widen)

theorem State.blockAllocated_frame (s : State) (j : Job) (b : BlockNo) :
    Frame [.writer, .ctl, .dev, .stretch, .reports, .takes] s (s.blockAllocated j b) := by
  unfold State.blockAllocated
  split
  · split
    · split
      · exact ((s.inHand_frame _).widen).andThen (State.ask_frame _ _)
      · exact s.linkBlock_frame j b
    · exact (s.handBack_frame j b).widen
  · exact (s.handBack_frame j b).widen

theorem State.endClose_frame (s : State) (t : TakeId) : Frame verifyParts s (s.endClose t) :=
  (((((State.modTake_frame s _ _).widen).andThen (State.freeIfDone_frame _ _)).andThen
    (State.letGo_frame _ _)).andThen (State.resumeVerify_frame _)).andThen (State.emit_frame _)

theorem State.beginClose_frame (s : State) (t : TakeId) : Frame verifyParts s (s.beginClose t) := by
  unfold State.beginClose
  extract_lets taken
  have h : Frame verifyParts s taken := (State.modWriter_frame s _).widen
  split
  · split
    · exact (h.andThen (State.inHand_frame _ _)).andThen (State.ask_frame _ _)
    · exact h.andThen (State.endClose_frame _ _)
  · exact h

theorem State.strand_frame (s : State) (t : TakeId) : Frame [.dev, .takes, .writer] s (s.strand t) :=
  (((s.latch_frame _).widen).andThen (State.modTake_frame _ _ _)).andThen (State.modWriter_frame _ _)

theorem State.afterWalk_frame (s : State) (h : Hand) : Frame jobParts s (s.afterWalk h) := by
  unfold State.afterWalk
  split
  · exact s.storeFrame_frame _
  · exact (s.letGo_frame _).widen

theorem State.blockReturned_frame (s : State) (t : TakeId) (n : Option BlockNo) :
    Frame [.takes, .writer] s (s.blockReturned t n) := by
  unfold State.blockReturned
  split
  · exact (State.modTake_frame s _ _).widen
  · exact ((State.setTake_frame s _ _).widen).andThen (State.modWriter_frame _ _)

theorem State.walkHeaderRead_frame (s : State) (t : TakeId) (b : BlockNo) (h : BlockHeader) (hand : Hand)
    (wrap : WalkPhase → Hand) :
    Frame [.writer, .ctl, .dev, .stretch, .reports, .takes] s (s.walkHeaderRead t b h hand wrap) := by
  unfold State.walkHeaderRead
  exact .ite (((s.inHand_frame _).widen).andThen (State.ask_frame _ _))
    (((s.strand_frame t).widen).andThen (State.afterWalk_frame _ _))

theorem State.takeWalkStep_frame (s : State) : Frame [.writer, .ctl] s s.takeWalkStep := by
  unfold State.takeWalkStep
  split
  · exact ((State.modWriter_frame s _).widen).andThen (State.beginWalk_frame _ _ _)
  · exact .refl s

theorem State.setCoder_frame (s : State) (k : Coder) : Frame [.coder] s { s with coder := k } := by
  intro p hp; cases p <;> first | exact absurd (by decide) hp | rfl

theorem State.acceptItem_frame (s : State) (t : TakeId) (it : Item) (rest : List Item) :
    Frame (.coder :: jobParts) s (s.acceptItem t it rest) :=
  ((s.setCoder_frame _).widen).andThen (State.storeFrame_frame _ _)

theorem State.takeStopGap_frame (s : State) (c : Chan) : Frame jobParts s (s.takeStopGap c) := by
  unfold State.takeStopGap
  extract_lets taken
  have h : Frame jobParts s taken := (State.modWriter_frame s _).widen
  split
  · exact (h.andThen (State.setStretch_frame _ _ _)).andThen (State.storeFrame_frame _ _)
  · exact h

theorem State.takeWork_frame (s : State) : Frame (.coder :: .stretch :: verifyParts) s s.takeWork := by
  unfold State.takeWork
  split
  · exact .refl s
  · exact (s.beginClose_frame _).widen
  · exact (s.takeStopGap_frame _).widen
  · split
    · exact .ite ((s.takeWalkStep_frame).widen) ((s.acceptItem_frame _ _ _).widen)
    · exact (s.takeWalkStep_frame).widen

theorem State.writeFaultAt_frame (s : State) (j : Job) (b : Bool) :
    Frame [.letters, .reports, .stretch, .writer] s (s.writeFaultAt j b) := by
  unfold State.writeFaultAt
  split
  · exact (((s.flagWriteFault_frame _).widen).andThen (State.raise_frame _ _ _ _)).andThen
      (State.abandonStretch_frame _ _)
  · exact .refl s

theorem State.closeFaultAt_frame (s : State) (t : TakeId) : Frame [.letters, .reports] s (s.closeFaultAt t) := by
  unfold State.closeFaultAt
  split
  · split
    · exact .refl s
    · split
      · exact ((s.flagWriteFault_frame _).widen).andThen (State.raise_frame _ _ _ _)
      · exact .refl s
  · exact .refl s

/-! ### The frame assembler -/

theorem State.offerFrame_frame (s : State) (c : Chan) (ps : List Piece) :
    Frame [.frames, .asm, .dev] s (s.offerFrame c ps) := by
  have base : ∀ q : List FrameEntry, Frame [.frames, .asm, .dev] s { s with frames := q } := by
    intro q p hp; cases p <;> first | exact absurd (by decide) hp | rfl
  unfold State.offerFrame
  split
  · exact .ite ((base _).andThen (State.modAsm_frame _ _ _))
      (((State.modAsm_frame s _ _).widen).andThen (State.latch_frame _ _))
  · exact .refl s

theorem State.placePiece_frame (s : State) (c : Chan) (k : Nat) (x : Piece) :
    Frame [.frames, .asm, .dev] s (s.placePiece c k x) := by
  unfold State.placePiece
  exact .ite ((State.modAsm_frame s _ _).widen)
    (((State.modAsm_frame s _ _).widen).andThen (State.offerFrame_frame _ _ _))

theorem State.placeFillers_frame (s : State) (c : Chan) (e : BitVec 4) (n : Nat) :
    Frame [.frames, .asm, .dev] s (s.placeFillers c e n) := by
  induction n generalizing s e with
  | zero => exact .refl s
  | succ n ih => exact (s.placePiece_frame _ _ _).trans (ih _ _)

theorem State.acceptAudio_frame (s : State) (c : Chan) (q : BitVec 4) (x : Vector Sample 32) (n : Nat) :
    Frame [.frames, .asm, .dev, .chanConds, .chans] s (s.acceptAudio c q x n) := by
  unfold State.acceptAudio
  extract_lets shown filled
  have h : Frame [.frames, .asm, .dev, .chanConds, .chans] s shown := .ite (.refl s) ((s.latchCellLoss_frame c).widen)
  exact ((h.andThen (State.placeFillers_frame _ _ _ _)).andThen (State.placePiece_frame _ _ _ _)).andThen
    (State.startIdleTimer_frame _ _)

/-! ### The channel control unit -/

/-- The items a change of a channel and its letter can reach. -/
abbrev channelParts : List Part :=
  [.chans, .takes, .writer, .reports, .letters, .steps, .emitter, .ret, .dev, .ctl, .pool, .asm, .frames, .stretch]

theorem State.restartAbandon_frame (s : State) (c : Chan) : Frame [.chans] s (s.restartAbandon c) := by
  unfold State.restartAbandon
  exact .ite (State.modChan_frame s _ _) (.refl s)

theorem State.startRecording_frame (s : State) (c : Chan) :
    Frame [.letters, .letterNo, .chans, .ctx, .takes, .asm] s (s.startRecording c) := by
  have h1 : Frame [.letters, .letterNo, .chans, .ctx, .takes, .asm] s (s.openForRecord c) := by
    unfold State.openForRecord
    split
    · split
      · exact (s.openLetterIn_frame _ _).widen
      · exact .refl s
    · exact .refl s
  have h2 : ∀ x : State, Frame [.letters, .letterNo, .chans, .ctx, .takes, .asm] x (x.editForRecord c) := by
    intro x
    unfold State.editForRecord
    split
    · exact .refl x
    · split
      · exact (x.recordStart_frame _ _ _).widen
      · exact .refl x
  have h3 : ∀ x : State, Frame [.letters, .letterNo, .chans, .ctx, .takes, .asm] x (x.enterRecording c) := fun x =>
    ((State.modChan_frame x _ _).widen).andThen (State.modAsm_frame _ _ _)
  exact (h1.trans (h2 _)).trans (h3 _)

theorem State.submitAndAck_frame (s : State) (c : Chan) (p : Fin 4) : Frame channelParts s (s.submitAndAck c p) :=
  (((s.submitLetter_frame c p false).widen).andThen (State.ackWith_frame _ _ _ _ _ _ _)).andThen (State.emit_frame _)

theorem State.flushBuffer_frame (s : State) (c : Chan) : Frame [.asm, .stretch, .writer] s (s.flushBuffer c) :=
  ((State.modAsm_frame s _ _).widen).andThen (State.abandonStretch_frame _ _)

theorem State.flushChannel_frame (s : State) (c : Chan) :
    Frame [.asm, .stretch, .writer, .frames] s (s.flushChannel c) := by
  have base : ∀ (x : State) (q : List FrameEntry), Frame [.frames] x { x with frames := q } := by
    intro x q p hp; cases p <;> first | exact absurd (by decide) hp | rfl
  exact ((s.flushBuffer_frame c).widen).andThen (base _ _)

theorem State.discardLetter_frame (s : State) (c : Chan) :
    Frame [.asm, .stretch, .writer, .frames, .letters, .takes, .reports, .chans] s (s.discardLetter c) := by
  unfold State.discardLetter
  extract_lets flushed
  have h : Frame [.asm, .stretch, .writer, .frames, .letters, .takes, .reports, .chans] s flushed :=
    (s.flushChannel_frame c).widen
  refine Frame.andThen (h.trans ?_) (State.toIdle_frame _ _)
  split
  · exact (State.freeLetter_frame _ _).widen
  · exact .refl _

theorem State.settleSegment_frame (s : State) (c : Chan) (t : TakeId) :
    Frame [.letters, .takes, .writer, .reports, .chans] s (s.settleSegment c t) := by
  unfold State.settleSegment
  exact .ite (((s.dropEmptySegment_frame c t).widen).andThen (State.modChan_frame _ _ _))
    ((State.modChan_frame s _ _).widen)

theorem State.completeStop_frame (s : State) (c : Chan) (t : TakeId) : Frame channelParts s (s.completeStop c t) := by
  unfold State.completeStop
  extract_lets settled stopped
  have h : Frame channelParts s settled := (s.settleSegment_frame c t).widen
  split
  · exact ((h.andThen (State.toStopped_frame _ _)).andThen (State.setPending_frame _ _ _)).andThen
      (State.ack_frame _ _ _ _)
  · exact ((h.andThen (State.toStopped_frame _ _)).andThen (State.setPending_frame _ _ _)).andThen
      (State.offerState_frame _ _ _ _ _)
  · exact h.andThen (State.submitAndAck_frame _ _ _)
  · exact h.andThen (State.toStopped_frame _ _)

theorem State.padStretch_frame (s : State) (c : Chan) : Frame [.frames, .asm, .dev] s (s.padStretch c) := by
  unfold State.padStretch
  exact .ite (.refl s) (((State.modAsm_frame s _ _).widen).andThen (State.offerFrame_frame _ _ _))

theorem State.handOver_frame (s : State) (c : Chan) (t : TakeId) (n : Nat) :
    Frame channelParts s (s.handOver c t n) := by
  unfold State.handOver
  extract_lets m
  exact .ite (s.completeStop_frame c t) (.ite (((s.setStretch_frame _ _).widen).andThen (State.modWriter_frame _ _))
    ((s.setStretch_frame _ _).widen))

theorem State.closeStretch_frame (s : State) (c : Chan) : Frame channelParts s (s.closeStretch c) := by
  unfold State.closeStretch
  extract_lets padded
  have h : Frame channelParts s padded := (s.padStretch_frame c).widen
  split
  · exact (h.andThen (State.modAsm_frame _ _ _)).andThen (State.handOver_frame _ _ _ _)
  · exact h

theorem State.beginStop_frame (s : State) (c : Chan) (p : PendingAction) : Frame channelParts s (s.beginStop c p) :=
  ((State.modChan_frame s _ _).widen).andThen (State.closeStretch_frame _ _)

theorem State.endRecording_frame (s : State) (c : Chan) (t : TakeId) :
    Frame [.asm, .stretch, .writer, .letters, .takes, .reports, .chans] s (s.endRecording c t) :=
  (((((s.flushBuffer_frame c).widen).andThen (State.dropEmptySegment_frame _ _ _)).andThen
    (State.clearCont_frame _ _)).andThen (State.toStopped_frame _ _)).andThen (State.setPending_frame _ _ _)

theorem State.stopAtChannel_frame (s : State) (c : Chan) (t : TakeId) (r : StateReport) :
    Frame channelParts s (s.stopAtChannel c t r) := by
  unfold State.stopAtChannel
  extract_lets stopped told
  have h : Frame channelParts s told :=
    ((s.endRecording_frame c t).widen).andThen (State.offerState_frame _ _ _ _ _)
  split
  · split
    · exact h.andThen (State.ack_frame _ _ _ _)
    · exact h.andThen (State.submitAndAck_frame _ _ _)
    · exact h
  · exact h

theorem State.takeControl_frame {ps : List Part} (s : State) (i : Instr) (c : Chan) (code : Byte)
    (accepts : List ChanState) (act : State → State) (h : ∀ x, Frame ps x (act x)) :
    Frame (.handed :: .chans :: .ret :: .dev :: ps) s (s.takeControl i c code accepts act) := by
  have sub : ∀ {x y : State}, Frame [.handed, .chans, .ret, .dev] x y →
      Frame (.handed :: .chans :: .ret :: .dev :: ps) x y := fun k p hp => k p fun hq => hp (by
        simp only [List.mem_cons, List.not_mem_nil, or_false] at hq; rcases hq with h | h | h | h <;> simp [h])
  unfold State.takeControl
  extract_lets taken
  have ht : Frame [.handed, .chans, .ret, .dev] s taken :=
    ((s.takeCell_frame i).widen).andThen (State.restartAbandon_frame _ _)
  split
  · exact sub (ht.andThen (State.ack_frame _ _ _ _))
  · exact (sub ht).trans fun p hp => h _ p fun hq => hp (by simp [hq])

/-! ### The management unit -/

theorem State.takeMgmt_frame {ps : List Part} (s : State) (i : Instr) (m : Mgmt) (code : Byte) (early : Bool)
    (act : State → State) (h : ∀ x, Frame ps x (act x)) :
    Frame (.handed :: .ret :: .dev :: ps) s (s.takeMgmt i m code early act) := by
  have sub : ∀ {x y : State}, Frame [.handed, .ret, .dev] x y → Frame (.handed :: .ret :: .dev :: ps) x y :=
    fun k p hp => k p fun hq => hp (by
      simp only [List.mem_cons, List.not_mem_nil, or_false] at hq; rcases hq with h | h | h | h <;> simp [h])
  unfold State.takeMgmt
  extract_lets taken
  have ht : Frame [.handed, .ret, .dev] s taken := (s.takeCell_frame i).widen
  split
  · split
    · exact sub (ht.andThen (State.reply_frame _ _ _ _ _))
    · exact (sub ht).trans fun p hp => h _ p fun hq => hp (by simp [hq])
  · exact sub ((ht.andThen (State.latch_frame _ _)).andThen (State.reply_frame _ _ _ _ _))

theorem State.clearChannel_frame (s : State) (c : Chan) :
    Frame [.asm, .stretch, .writer, .frames, .letters, .takes, .reports, .chans, .chanConds, .ctx] s
      (s.clearChannel c) := by
  have h : Frame [.asm, .stretch, .writer, .frames, .letters, .takes, .reports, .chans, .chanConds, .ctx] s
      (s.clearLetter c) := by
    unfold State.clearLetter
    exact .ite ((s.flushChannel_frame c).widen) ((s.discardLetter_frame c).widen)
  exact ((h.andThen (State.modChanConds_frame _ _ _)).andThen (State.modAsm_frame _ _ _)).andThen
    (State.modCtx_frame _ _ _)

end Sys2Proof.Machine
end

