-- ==== Sys2Proof/Laws/Memory.lean ====
section
/-!
SUPPORT. What reading a memory gives after each operation that writes it, and that every such operation keeps the
canonical form. Nothing else about the two memories need be unfolded.
-/

namespace Sys2Proof.Machine

set_option Elab.async false

/-! ### One byte -/

@[simp] theorem Memory.get?_nil (n : Nat) : Memory.get? [] n = none := rfl

/-- A byte written is read back. -/
theorem Memory.get?_put_same (m : Memory) (n : Nat) (b : Byte) : Memory.get? (m.put n b) n = some b := by
  induction m with
  | nil => simp [Memory.put, Memory.get?]
  | cons cell rest ih =>
    obtain ⟨a, x⟩ := cell
    simp only [Memory.put]
    split
    · simp [Memory.get?]
    · split
      · simp [Memory.get?]
      · next _ other => simpa [Memory.get?, Ne.symm other] using ih

/-- A write leaves every other address as it was. -/
theorem Memory.get?_put_other (m : Memory) {n a : Nat} (b : Byte) (h : a ≠ n) :
    Memory.get? (m.put n b) a = Memory.get? m a := by
  induction m with
  | nil => simp [Memory.put, Memory.get?, Ne.symm h]
  | cons cell rest ih =>
    obtain ⟨c, x⟩ := cell
    simp only [Memory.put]
    split
    · simp [Memory.get?, Ne.symm h]
    · split
      · next _ same => subst same; simp [Memory.get?, Ne.symm h]
      · simp [Memory.get?, ih]

/-- An entry after a write is the one written, or stood there before. -/
theorem Memory.mem_put {m : Memory} {n : Nat} {b : Byte} {cell : Host.Cell} (h : cell ∈ m.put n b) :
    cell = (n, b) ∨ cell ∈ m := by
  induction m with
  | nil => exact .inl (List.mem_singleton.mp h)
  | cons first rest ih =>
    obtain ⟨a, x⟩ := first
    simp only [Memory.put] at h
    split at h
    · exact List.mem_cons.mp h
    · split at h
      · exact (List.mem_cons.mp h).imp id (List.mem_cons_of_mem _)
      · rcases List.mem_cons.mp h with h | h
        · exact .inr (h ▸ List.mem_cons_self)
        · exact (ih h).imp id (List.mem_cons_of_mem _)

/-- A write keeps the canonical form. -/
theorem Memory.wf_put {m : Memory} (h : m.wf) (n : Nat) (b : Byte) : (m.put n b).wf := by
  induction m with
  | nil => exact List.pairwise_singleton _ _
  | cons first rest ih =>
    obtain ⟨a, x⟩ := first
    obtain ⟨above, tail⟩ := List.pairwise_cons.mp h
    simp only [Memory.put]
    split
    · next less =>
      refine List.pairwise_cons.mpr ⟨fun cell mem => ?_, h⟩
      rcases List.mem_cons.mp mem with eq | mem
      · exact eq ▸ less
      · exact Nat.lt_trans less (above cell mem)
    · split
      · next _ same => exact List.pairwise_cons.mpr ⟨fun cell mem => same ▸ above cell mem, tail⟩
      · next notLess other =>
        refine List.pairwise_cons.mpr ⟨fun cell mem => ?_, ih tail⟩
        rcases Memory.mem_put mem with eq | mem
        · subst eq
          show a < n
          omega
        · exact above cell mem

/-! ### Runs of bytes -/

theorem Memory.wf_putBytes {m : Memory} (h : m.wf) (n : Nat) (bytes : List Byte) : (m.putBytes n bytes).wf := by
  induction bytes generalizing m n with
  | nil => exact h
  | cons b rest ih => exact ih (Memory.wf_put h n b) (n + 1)

theorem Memory.wf_putMarked {m : Memory} (h : m.wf) (n : Nat) (bytes : List Byte) (marks : List Bool) :
    (m.putMarked n bytes marks).wf := by
  induction bytes generalizing m n marks with
  | nil => exact h
  | cons b rest ih =>
    cases marks with
    | nil => exact h
    | cons placed marks =>
      refine ih ?_ (n + 1) marks
      split
      · exact Memory.wf_put h n b
      · exact h

theorem Memory.wf_change {m : Memory} (h : m.wf) (top : Nat) (cells : List Host.Cell) : (m.change top cells).wf := by
  induction cells generalizing m with
  | nil => exact h
  | cons cell rest ih =>
    refine ih ?_
    split
    · exact Memory.wf_put h _ _
    · exact h

/-- Outside the run a write of a run leaves every address as it was. -/
theorem Memory.get?_putBytes_outside (m : Memory) (n : Nat) (bytes : List Byte) {a : Nat}
    (h : a < n ∨ n + bytes.length ≤ a) : Memory.get? (m.putBytes n bytes) a = Memory.get? m a := by
  induction bytes generalizing m n with
  | nil => rfl
  | cons b rest ih =>
    simp only [List.length_cons] at h
    rw [Memory.putBytes, ih _ _ (by omega), Memory.get?_put_other _ _ (by omega)]

/-- Inside the run it reads as written. -/
theorem Memory.get?_putBytes_inside (m : Memory) (n : Nat) (bytes : List Byte) (k : Nat) (h : k < bytes.length) :
    Memory.get? (m.putBytes n bytes) (n + k) = some bytes[k] := by
  induction bytes generalizing m n k with
  | nil => cases h
  | cons b rest ih =>
    rw [Memory.putBytes]
    cases k with
    | zero =>
      rw [Nat.add_zero, Memory.get?_putBytes_outside _ _ _ (by omega)]
      exact Memory.get?_put_same m n b
    | succ k =>
      rw [show n + (k + 1) = n + 1 + k by omega]
      exact ih (m.put n b) (n + 1) k (Nat.lt_of_succ_lt_succ h)

/-- A marked write leaves every address old, or puts the run's byte there. -/
theorem Memory.get?_putMarked (m : Memory) (n : Nat) (bytes : List Byte) (marks : List Bool) (a : Nat) :
    Memory.get? (m.putMarked n bytes marks) a = Memory.get? m a ∨
      ∃ k, a = n + k ∧ ∃ h : k < bytes.length, Memory.get? (m.putMarked n bytes marks) a = some bytes[k] := by
  induction bytes generalizing m n marks with
  | nil => exact .inl rfl
  | cons b rest ih =>
    cases marks with
    | nil => exact .inl rfl
    | cons placed marks =>
      rw [Memory.putMarked]
      rcases ih (if placed then m.put n b else m) (n + 1) marks with old | ⟨k, eq, h, new⟩
      · by_cases same : a = n
        · cases placed
          · exact .inl old
          · refine .inr ⟨0, by omega, by simp, ?_⟩
            rw [old, same]
            exact Memory.get?_put_same m n b
        · refine .inl (old.trans ?_)
          split
          · exact Memory.get?_put_other m b same
          · rfl
      · exact .inr ⟨k + 1, by omega, Nat.succ_lt_succ h, new⟩

/-! ### The two memories of the part -/

theorem memoriesCanonical_reset : MemoriesCanonical State.reset := ⟨.nil, .nil⟩

/-- What a complete write access leaves in the store. -/
theorem storeWrites_performWrite (s : State) (a : Access) (n : Nat) (bytes : List Byte)
    (h : s.writeOf a = some (n, bytes)) : StoreWrites s (s.performWrite a) n bytes := by
  have store : (s.performWrite a).store = s.store.putBytes n bytes := by simp [State.performWrite, h]
  refine ⟨fun k hk => ?_, fun x hx => ?_⟩
  · simp [State.storeByte, store, Memory.get?_putBytes_inside _ _ _ k hk]
  · simp [State.storeByte, store, Memory.get?_putBytes_outside _ _ _ hx]

/-- A word's bytes, read back. -/
theorem wordAt_wordBytes (w : BitVec 16) : wordAt (wordBytes w) 0 = w := by
  show w.extractLsb' 8 8 ++ w.extractLsb' 0 8 = w
  ext i h
  simp only [BitVec.getElem_append, BitVec.getElem_extractLsb']
  split
  · rw [Nat.zero_add, BitVec.getLsbD_eq_getElem]
  · rw [show 8 + (i - 8) = i by omega, BitVec.getLsbD_eq_getElem]

/-- A ring slot that holds a block number's two bytes reads as that number. -/
theorem ringSlot_of_bytes {s : State} {slot : Nat} {w : BlockNo} (high : s.storeByte (2 * slot) = w.extractLsb' 8 8)
    (low : s.storeByte (2 * slot + 1) = w.extractLsb' 0 8) : s.ringSlot slot = w := by
  have bytes : s.storeBytes (2 * slot) 2 = wordBytes w := by
    show [s.storeByte (2 * slot), s.storeByte (2 * slot + 1)] = [w.extractLsb' 8 8, w.extractLsb' 0 8]
    rw [high, low]
  rw [State.ringSlot, bytes, wordAt_wordBytes]

/-- What a write access that failed or was cut leaves in the store. -/
theorem storeByte_performMarked (s : State) (a : Access) (placed : List Bool) (x : Nat) :
    (s.performMarked a placed).storeByte x = s.storeByte x ∨
      ∃ n bytes k, s.writeOf a = some (n, bytes) ∧ x = n + k ∧
        ∃ h : k < bytes.length, (s.performMarked a placed).storeByte x = bytes[k] := by
  unfold State.performMarked
  split
  · next n bytes write =>
    rcases Memory.get?_putMarked s.store n bytes placed x with old | ⟨k, eq, h, new⟩
    · exact .inl (by simp [State.storeByte, old])
    · exact .inr ⟨n, bytes, k, write, eq, h, by simp [State.storeByte, new]⟩
  · exact .inl rfl

theorem memoriesCanonical_performWrite {s : State} (h : MemoriesCanonical s) (a : Access) :
    MemoriesCanonical (s.performWrite a) := by
  unfold State.performWrite
  split
  · exact ⟨Memory.wf_putBytes h.1 _ _, h.2⟩
  · exact h

theorem memoriesCanonical_performMarked {s : State} (h : MemoriesCanonical s) (a : Access) (placed : List Bool) :
    MemoriesCanonical (s.performMarked a placed) := by
  unfold State.performMarked
  split
  · exact ⟨Memory.wf_putMarked h.1 _ _ _, h.2⟩
  · exact h

theorem memoriesCanonical_changeStore {s : State} (h : MemoriesCanonical s) (cells : List Host.Cell) :
    MemoriesCanonical (s.changeStore cells) := ⟨Memory.wf_change h.1 _ _, h.2⟩

theorem memoriesCanonical_changeConfig {s : State} (h : MemoriesCanonical s) (cells : List Host.Cell) :
    MemoriesCanonical (s.changeConfig cells) := ⟨h.1, Memory.wf_change h.2 _ _⟩

end Sys2Proof.Machine
end

