-- ==== Sys2Proof/Tests/Slice0.lean ====
section
/-!
SUPPORT. Tests: the checks of WellFormed, the manual's worked examples, decoding, and for every statement a state and
operands that meet its hypotheses, clause by clause, with what the command then does.
-/

namespace Sys2Proof.Tests

open Sys2Proof.Machine

set_option Elab.async false
set_option maxRecDepth 20000

/-! ### WellFormed -/

theorem test_wellFormed_mgmt_used : (Instr.ident { tag := 1, used := 65, intact := false }).wellFormed = false := by decide +kernel

theorem test_wellFormed_mgmt_intact : (Instr.restart { tag := 1, used := 63, intact := true }).wellFormed = false := by decide +kernel

theorem test_wellFormed_mgmt_unknown :
    (Instr.mgmtUnknown { tag := 1, used := 64, intact := true } 0x13).wellFormed = false := by decide +kernel

theorem test_wellFormed_control_unknown : (Instr.controlUnknown 3 8).wellFormed = false := by decide +kernel

theorem test_wellFormed_changed_store : (Instr.ringReadDone [(33554432, 0)]).wellFormed = false := by decide +kernel

theorem test_wellFormed_changed_config : (Instr.configReadAttemptEnd true [(65536, 0)]).wellFormed = false := by decide +kernel

theorem test_wellFormed_accepts : (Instr.controlUnknown 3 3).wellFormed = true ∧
    (Instr.configSave { tag := 0, used := 64, intact := true }).wellFormed = true := by decide +kernel

/-! ### The manual's numbers -/

/-- R205's example. -/
theorem test_crc16 : crc16 [0x31, 0x32, 0x33, 0x34, 0x35, 0x36, 0x37, 0x38, 0x39] = 0x29B1 := by decide +kernel

/-- The table of R11. -/
theorem test_gain_stage : scaled 256 100 = 100 ∧ scaled 256 (-40) = -40 ∧ scaled 300 (-112) = -131 ∧
    scaled 300 30000 = 32767 ∧ isClipped 300 30000 = true ∧ scaled 300 (-30000) = -32768 ∧
    isClipped 300 (-30000) = true ∧ scaled 256 (-32768) = -32768 ∧ isClipped 256 (-32768) = false := by decide +kernel

/-- The worked case of "Speech frames": D = 190, e = 5, codes 3, 3, −1, −6. -/
theorem test_worked_case : largestStep 0 [100, 180, 150, -40] = 190 ∧ exponentFor 4 190 = 5 ∧
    codeSamples 4 5 0 [100, 180, 150, -40] = { codes := [3, 3, -1, -6], final := -32, overload := false } := by decide +kernel

/-- The same codes as bytes. -/
theorem test_packed_codes : packCodes 4 [3, 3, -1, -6] = [0x33, 0xFA] := by decide +kernel

/-- The clamp example of "Speech frames": d = −240 at e = 5. -/
theorem test_clamp : roundedCode 5 (-240) = -8 ∧ boundedCode 4 (-8) = -7 := by decide +kernel

/-- The table of AGC examples. -/
theorem test_agc : agcUpdate .default 256 0 1200 = 264 ∧ agcUpdate .default 256 0 2500 = 256 ∧
    agcUpdate .default 256 0 2600 = 240 ∧ agcUpdate .default 1000 12 9000 = 875 ∧
    agcUpdate .default 1020 0 500 = 1023 ∧ agcUpdate .default 70 9 3000 = 64 ∧
    agcUpdate .default 300 8 1000 = 263 := by decide +kernel

/-- R24's example. -/
theorem test_low_run : lowRunAfter .default 1023 900 7 = 8 ∧ lowRunAfter .default 1023 1024 7 = 0 ∧
    lowRunAfter .default 1022 900 7 = 7 := by decide +kernel

/-- The map of "Example: an overwrite across two boundaries". -/
def exampleMap : List Segment :=
  [⟨3, 0, 5, .content⟩, ⟨4, 10, 2, .content⟩, ⟨5, 0, 4, .content⟩]

/-- RECORD at cursor 3 of that example. -/
theorem test_record_start : insertAt exampleMap 3 ⟨7, 0, 0, .content⟩ =
    [⟨3, 0, 3, .content⟩, ⟨7, 0, 0, .content⟩, ⟨3, 3, 2, .content⟩, ⟨4, 10, 2, .content⟩, ⟨5, 0, 4, .content⟩] ∧
    entriesNeeded exampleMap 3 = 2 ∧ entriesNeeded exampleMap 5 = 1 := by decide +kernel

/-- Commits 1 and 2 of that example. -/
theorem test_overwrite :
    commitFrame 7 true (commitFrame 7 true (insertAt exampleMap 3 ⟨7, 0, 0, .content⟩)) =
    [⟨3, 0, 3, .content⟩, ⟨7, 0, 2, .content⟩, ⟨4, 10, 2, .content⟩, ⟨5, 0, 4, .content⟩] := by decide +kernel

/-- "Example: an erase that splits": the cut, and the split had the cursor stood at 4. -/
theorem test_erase :
    eraseFrom 0 1 5 [⟨3, 0, 3, .content⟩, ⟨7, 0, 9, .content⟩] = [⟨3, 0, 1, .content⟩, ⟨7, 2, 7, .content⟩] ∧
    eraseFrom 0 4 6 [⟨3, 0, 3, .content⟩, ⟨7, 0, 9, .content⟩] =
      [⟨3, 0, 3, .content⟩, ⟨7, 0, 1, .content⟩, ⟨7, 3, 6, .content⟩] := by decide +kernel

/-! ### Decoding, a byte at a time from R201 to R203 -/

/-- RECORD for channel 5: channel 5 × 8 + kind 2, code 1, used count 1. -/
theorem test_decode_record :
    routeCell ([0x2A, 0x00, 1, 0] ++ [1] ++ List.replicate 63 0) = .routed (.record 4) := by decide +kernel

/-- SEEK for channel 1, mode RELATIVE, −2. -/
theorem test_decode_seek : routeCell ([0x0A, 0x30, 5, 0] ++ [3, 1, 0xFF, 0xFF, 0xFE] ++ List.replicate 59 0) =
    .routed (.seek 0 .relative (-2)) := by decide +kernel

/-- SUBMIT for channel 24 with priority 15, and with the value 4, which names none. -/
theorem test_decode_submit :
    routeCell ([0xC2, 0x00, 2, 0] ++ [7, 15] ++ List.replicate 62 0) = .routed (.submit 23 none) ∧
    routeCell ([0xC2, 0x00, 2, 0] ++ [7, 4] ++ List.replicate 62 0) = .routed (.controlUnknown 23 7) := by decide +kernel

/-- AUDIO for channel 2, sequence 6, first sample −2; a short one; one for channel 25. -/
theorem test_decode_audio :
    routeCell ([0x11, 0x60, 64, 0] ++ [0xFF, 0xFE] ++ List.replicate 62 0) =
      .routed (.audio 1 6 ((Vector.replicate 32 0).set 0 (-2))) ∧
    routeCell ([0x11, 0x60, 63, 0] ++ List.replicate 64 0) = .badUsed ∧
    routeCell ([0xC9, 0x60, 64, 0] ++ List.replicate 64 0) = .misrouted := by decide +kernel

/-- MASK_WRITE with tag 9 in a payload whose check does not match, and a MGMT cell on channel 1. -/
theorem test_decode_mgmt :
    routeCell ([0x03, 0x00, 64, 0] ++ [9, 0x11, 0x20, 0x80] ++ List.replicate 60 0) =
      .routed (.maskWrite { tag := 9, used := 64, intact := false } 0x20 0x80) ∧
    routeCell ([0x0B, 0x00, 64, 0] ++ List.replicate 64 0) = .misrouted := by decide +kernel

/-- The header of an ACK of channel 7 with sequence 9 and W set, as the manual's trace shows it. -/
theorem test_ack_header : (cellBytes 7 5 9 1 11 []).take 3 = [0x3D, 0x91, 0x0B] := by decide +kernel

/-! ### Small states -/

/-- What a command answers, as a state. -/
def after : Result → State
  | .next t => t
  | _ => State.reset

/-- READY, the store IDLE with every block free, *HOLD* asserted so that nothing is emitted. -/
def ready : State :=
  { State.reset with
    startup := { State.reset.startup with state := .ready }
    ctl := { State.reset.ctl with
      st := .idle, settings := { window := 0, wait := .onReady, mark := 16 }, tail := 8160, free := 8160 }
    hold := true }

/-- Channel 1 is IDLE on profile 1. -/
def bound : State := ready.modChan 0 fun ch => { ch with state := .idle, profile := some 1 }

/-- A take of five gap frames in one block. -/
def someTake : Take :=
  { Take.issued 0 with
    first := some 100, current := some 100, blocks := 1, frames := 5, view := [0x20, 3, 7, 0x21, 2, 0], recs := 2
    lastGap := some { offset := 3, count := 2, patched := true } }

/-- The letter of those frames. -/
def someLetter : Letter :=
  { Letter.opening 1 0 1 with contentFrames := 5, map := [⟨0, 0, 5, .content⟩] }

/-- Channel 1 holds that letter open, its take WRITING. -/
def holding (ch : Channel) : State :=
  { ((bound.modChan 0 fun _ => ch).setLetter 0 (some someLetter)).setTake 0 (some someTake) with letterNo := 2 }

/-- STOPPED with continuation set, at the end of the letter. -/
def stoppedChan : Channel :=
  { Channel.reset with
    state := .stopped, profile := some 1, slot := some 0, cursor := 5, cont := true, abandonTimer := some 60 }

/-- RECORDING. -/
def recordingChan : Channel :=
  { stoppedChan with state := .recording, idleTimer := some 8, abandonTimer := none }

/-- STOPPING with a pending action. -/
def stoppingChan (p : PendingAction) : Channel :=
  { stoppedChan with state := .stopping, pending := p, abandonTimer := none }

/-- Channel 1 is STOPPED. -/
def stopped : State := holding stoppedChan

/-- Channel 1 is RECORDING. -/
def recording : State := holding recordingChan

/-- Channel 1 is STOPPING with a pending STOP. -/
def stopping : State := holding (stoppingChan .stop)

/-- The same, the take CLOSED and continuation clear, the cursor inside the letter. -/
def stoppedInside : State :=
  { (holding { stoppedChan with cont := false, cursor := 2 }).setTake 0 (some { someTake with state := .closed }) with
    pending := [] }

/-- An intact MGMT cell with tag 9. -/
def good : Mgmt := { tag := 9, used := 64, intact := true }

/-- 68 bytes as a cell. -/
def cellOf (bytes : List Byte) : Vector Byte 68 := Vector.ofFn fun i => byteAt bytes i.val

/-- A cell with a valid header. -/
def goodCell : Vector Byte 68 := cellOf ((encodeCell (.record 0)).getD [])

/-- A cell with a bad header. -/
def badCell : Vector Byte 68 := goodCell.set 3 0

/-- The samples of a silent cell. -/
def silence : Vector Sample 32 := Vector.replicate 32 0

/-- Two states agree on an item. -/
def same (s t : State) : Part → Bool
  | .pending => s.pending = t.pending
  | .handed => s.handed = t.handed
  | .startup => s.startup = t.startup
  | .cfgMem => s.cfgMem = t.cfgMem
  | .port => s.port = t.port
  | .ret => s.ret = t.ret
  | .asm => s.asm.toList = t.asm.toList
  | .frames => s.frames = t.frames
  | .coder => s.coder = t.coder
  | .ctx => s.ctx = t.ctx
  | .profiles => s.profiles = t.profiles
  | .chans => s.chans.toList = t.chans.toList
  | .letters => s.letters.toList = t.letters.toList
  | .letterNo => s.letterNo = t.letterNo
  | .takes => s.takes.toList = t.takes.toList
  | .writer => s.writer = t.writer
  | .stretch => s.stretch = t.stretch
  | .reports => s.reports = t.reports
  | .store => s.store = t.store
  | .ctl => s.ctl = t.ctl
  | .emitter => s.emitter = t.emitter
  | .steps => s.steps.toList = t.steps.toList
  | .pool => s.pool = t.pool
  | .hold => s.hold = t.hold
  | .dev => s.dev = t.dev
  | .chanConds => s.chanConds = t.chanConds
  | .errMask => s.errMask = t.errMask
  | .warnMask => s.warnMask = t.warnMask
  | .verify => s.verify = t.verify
  | .peek => s.peek = t.peek
  | .save => s.save = t.save
  | .restart => s.restart = t.restart

/-- The items a command changed, in the order of `Part`. -/
def changed (i : Instr) (s : State) : List Part :=
  [Part.pending, .handed, .startup, .cfgMem, .port, .ret, .asm, .frames, .coder, .ctx, .profiles, .chans, .letters,
    .letterNo, .takes, .writer, .stretch, .reports, .store, .ctl, .emitter, .steps, .pool, .hold, .dev, .chanConds,
    .errMask, .warnMask, .verify, .peek, .save, .restart].filter fun p => !same s (after (exec i s)) p

/-! ### The step, resets and start-up -/

theorem witness_StepTakesFrontCommand :
    (ready.withPending [.holdAssert, .busReleaseEnd]).pending = .holdAssert :: [.busReleaseEnd] ∧
    ready.pending = [] := by decide +kernel

/-- A full reset that cuts a ring write after its first byte. -/
theorem test_full_reset_cut :
    (after (exec (.fullReset [true] []) { ready with ctl := { ready.ctl with st := .rebuilding 3 } })).store =
      [(6, 0)] ∧
    changed (.fullReset [] []) { State.reset with hold := true, pending := [.holdAssert] } = [] := by decide +kernel

/-- Area A with window mode 1, wait mode READY and mark 512. -/
def areaBytes : List Byte :=
  AreaA.bytes { settings := { window := 1, wait := .onReady, mark := 512 }, error := 0xFF, warning := 0x7F }

/-- Area A as R192 lays it out, byte by byte. -/
theorem test_area_a : areaBytes.take 14 = [1, 1, 2, 2, 0, 0xFF, 0x7F, 0, 0, 0, 0, 0, 0, 0] := by decide +kernel

/-- An attempt at an area, with these bytes in the memory. -/
def loading (area : Area) (attempt : Nat) (bytes : List Byte) : State :=
  { State.reset with
    startup := { State.reset.startup with state := .configLoad, area := area, attempt := attempt }
    cfgMem := ((List.range bytes.length).map (area.base + ·)).zip bytes }

/-- 14 bytes with version 2 and their check. -/
def badVersion : List Byte :=
  let body : List Byte := 2 :: List.replicate 13 0
  body ++ wordBytes (crc16 body)

theorem witness_StartupReadsAreas_a :
    State.reset.startup.state = .powerOn ∧
    changed .busReleaseEnd State.reset = [.startup] ∧
    (loading .a 1 areaBytes).startup.state = .configLoad ∧ (loading .a 1 areaBytes).startup.area = .a ∧
    ((loading .a 1 areaBytes).changeConfig []).readArea .a = some (areaBytes.take 14) ∧
    (AreaA.read (areaBytes.take 14)).isSome ∧
    changed (.configReadAttemptEnd true []) (loading .a 1 areaBytes) = [.startup, .warnMask] ∧
    ((loading .a 1 badVersion).changeConfig []).readArea .a = some (badVersion.take 14) ∧
    AreaA.read (badVersion.take 14) = none ∧
    changed (.configReadAttemptEnd true []) (loading .a 1 badVersion) = [.startup, .dev] ∧
    (loading .a 3 areaBytes).startup.attempt = 3 ∧
    changed (.configReadAttemptEnd false []) (loading .a 3 areaBytes) = [.startup, .dev] ∧
    (loading .a 2 areaBytes).startup.attempt < 3 ∧
    changed (.configReadAttemptEnd false []) (loading .a 2 areaBytes) = [.startup] := by decide +kernel

/-- Area B with channel 1 on profile 3 and the others UNBOUND. -/
def areaBBytes : List Byte :=
  AreaB.bytes { AreaB.default with bindings := (Vector.replicate 24 none).set 0 (some 3) }

/-- The same with channel 1's binding 16, which names no profile. -/
def badBinding : List Byte :=
  let body := (areaBBytes.take 280).set 256 16
  body ++ wordBytes (crc16 body)

theorem witness_StartupReadsAreas_b :
    (loading .b 1 areaBBytes).startup.state = .configLoad ∧ (loading .b 1 areaBBytes).startup.area = .b ∧
    ((loading .b 1 areaBBytes).changeConfig []).readArea .b = some (areaBBytes.take 280) ∧
    (AreaB.read (areaBBytes.take 280)).map (fun b => b.bindings[0]) = some (some 3) := by decide +kernel

theorem witness_StartupReadsAreas_defaults :
    AreaB.read (badBinding.take 280) = none ∧
    (loading .b 3 []).startup.attempt = 3 ∧
    changed (.configReadAttemptEnd false []) (loading .b 3 []) = [.startup, .chans, .ctl, .dev] ∧
    (loading .b 2 []).startup.attempt < 3 ∧
    changed (.configReadAttemptEnd false []) (loading .b 2 []) = [.startup] := by decide +kernel

theorem witness_StateMovesWhereSaid :
    exec .busReleaseEnd State.reset = .next (after (exec .busReleaseEnd State.reset)) ∧
    (after (exec .busReleaseEnd State.reset)).startup.state = .configLoad := ⟨rfl, by decide +kernel⟩

/-! ### The intake link and the frame assembler -/

/-- The port in a sync state. -/
def synced (x : Sync) : State := { ready with port := { sync := x, nextHeader := 0 } }

theorem witness_IntakePortAligns_hunt :
    ready.port.sync = .hunt ∧ crc8 [0x0A, 0, 1] = 0x89 ∧
    (after (exec (.huntByteTest 0x0A 0 1 0x89) ready)).port = { sync := .presync 1, nextHeader := 68 } ∧
    crc8 [0x0A, 0, 1] ≠ 0 ∧
    (after (exec (.huntByteTest 0x0A 0 1 0) ready)).port = { sync := .hunt, nextHeader := 1 } ∧
    (synced (.presync 1)).port.sync = .presync 1 ∧ headerGood badCell.toList = false ∧
    (after (exec (.presyncHeader badCell) (synced (.presync 1)))).port = { sync := .hunt, nextHeader := 1 } ∧
    headerGood goodCell.toList = true ∧
    (after (exec (.presyncHeader goodCell) (synced (.presync 1)))).port = { sync := .presync 2, nextHeader := 68 } ∧
    (synced (.presync 2)).port.sync = .presync 2 ∧
    (after (exec (.presyncHeader goodCell) (synced (.presync 2)))).handed = [.record 0] := by decide +kernel

/-- A valid header of an AUDIO cell for channel 25, and of one with a used count of 63. -/
def misroutedCell : Vector Byte 68 := cellOf (cellBytes 25 1 0 0 64 [])
/-- See `misroutedCell`. -/
def shortAudio : Vector Byte 68 := cellOf (cellBytes 1 1 0 0 63 [])

theorem witness_IntakePortAligns_sync :
    (synced (.sync 2)).port.sync = .sync 2 ∧ (synced (.sync 3)).port.sync = .sync 3 ∧
    readCell goodCell.toList = .routed (.record 0) ∧
    changed (.intakeCell goodCell) (synced (.sync 3)) = [.handed, .port] ∧
    readCell misroutedCell.toList = .misrouted ∧
    changed (.intakeCell misroutedCell) (synced (.sync 0)) = [.port, .dev] ∧
    readCell shortAudio.toList = .badUsed ∧
    changed (.intakeCell shortAudio) (synced (.sync 0)) = [.port, .dev] ∧
    readCell badCell.toList = .badHeader ∧
    (after (exec (.intakeCell badCell) (synced (.sync 2)))).port = { sync := .sync 3, nextHeader := 68 } ∧
    (after (exec (.intakeCell badCell) (synced (.sync 3)))).port = { sync := .hunt, nextHeader := 1 } ∧
    (after (exec (.intakeCell badCell) (synced (.sync 3)))).latched .syncLost = true := by decide +kernel

/-- Commands of every form that a cell carries are read back from their cells. -/
theorem witness_CellsReadBack :
    ([.seek 23 .relative (-5), .submit 0 (some 3), .erase 4 70000, .controlUnknown 2 0, .controlUnknown 2 7,
      .ident good, .mgmtUnknown good 0x14, .blockPeek good 258 480, .statusClear good 0x1234 24 7,
      .audio 3 15 silence] : List Instr).all fun i =>
      i.wellFormed && (encodeCell i).any fun cell => cell.length = 68 && readCell cell = .routed i := by decide +kernel

/-- A return queue of `n` cells behind one being sent. -/
def sending (n : Nat) : State :=
  { ready with ret := { ready.ret with
    line := some [], queue := List.replicate n { channel := 1, kind := 5, sequence := 3, used := 1, payload := [7] } } }

theorem witness_ReturnPathSendsInOrder :
    (sending 48).ret.queue.length = 48 ∧ ((sending 48).offer 1 5 1 [8]).latched .returnOverflow = true ∧
    (sending 47).ret.queue.length < 48 ∧ (sending 47).ret.line.isSome ∧
    ((sending 47).offer 1 5 1 [8]).ret.queue.length = 48 ∧
    ready.ret.line = none ∧ ready.ret.queue = [] ∧
    (ready.offer 1 5 1 [8]).ret.line = some (cellBytes 1 5 0 0 1 [8]) ∧
    (after (exec .returnCellEnd (sending 0))).ret.line = none ∧
    (sending 2).ret.queue = { channel := 1, kind := 5, sequence := 3, used := 1, payload := [7] } ::
      [{ channel := 1, kind := 5, sequence := 3, used := 1, payload := [7] }] ∧
    (after (exec .returnCellEnd (sending 2))).ret.line = some (cellBytes 1 5 3 0 1 [7]) := by decide +kernel

theorem witness_AudioIsAssembled_outside :
    State.reset.startup.state ≠ .ready ∧ changed (.audio 0 5 silence) State.reset = [] ∧
    ready.startup.state = .ready ∧ ready.chans[0].state = .unbound ∧
    changed (.audio 0 5 silence) ready = [.dev] ∧
    stopped.chans[0].state = .stopped ∧ changed (.audio 0 5 silence) stopped = [.asm] ∧
    (after (exec (.audio 0 15 silence) stopped)).asm[0].expected = some 0 := by decide +kernel

/-- A RECORDING channel with `n` received pieces in its buffer and a number of frames queued. -/
def filling (n queued : Nat) : State :=
  { recording.modAsm 0 fun a => { a with
      buf := List.replicate n (.received silence), fresh := false, expected := some (BitVec.ofNat 4 n), drops := 2 } with
    frames := List.replicate queued (frameOf 1 5 [] 0) }

theorem witness_AudioIsAssembled :
    recording.startup.state = .ready ∧ recording.chans[0].state = .recording ∧ recording.writingTake 0 = some 0 ∧
    recording.asm[0].expected = none ∧ recording.asm[0].fresh = true ∧
    (after (exec (.audio 0 6 silence) recording)).asm[0].buf = [.pad, .pad, .received silence] ∧
    changed (.audio 0 6 silence) recording = [.asm] := by decide +kernel

theorem witness_AudioIsAssembled_frame :
    (filling 2 0).asm[0].expected = some 2 ∧ changed (.audio 0 2 silence) (filling 2 0) = [.asm] ∧
    (filling 3 31).frames.length < 32 ∧ (filling 3 31).writingTake 0 = some 0 ∧
    changed (.audio 0 3 silence) (filling 3 31) = [.asm, .frames] ∧
    (after (exec (.audio 0 3 silence) (filling 3 31))).frames.getLast?.map FrameEntry.drops = some 2 ∧
    (filling 3 32).frames.length = 32 ∧ changed (.audio 0 3 silence) (filling 3 32) = [.asm, .dev] ∧
    (after (exec (.audio 0 3 silence) (filling 3 32))).asm[0].drops = 3 := by decide +kernel

/-- The second cell 11 and cell 2 of the example "loss and overflow on one channel". -/
theorem witness_LostCellsAreFilled :
    (filling 3 0).asm[0].expected = some 3 ∧ (3 : BitVec 4) ≠ 2 ∧ (filling 3 27).frames.length + 5 = 32 ∧
    (after (exec (.audio 0 2 silence) (filling 3 27))).frames.length = 31 ∧
    (after (exec (.audio 0 2 silence) (filling 3 27))).asm[0].buf.length = (3 + 15 + 1) % 4 ∧
    (filling 1 0).asm[0].expected = some 1 ∧
    (after (exec (.audio 0 3 silence) (filling 1 0))).frames.map FrameEntry.patched = [true] ∧
    changed (.audio 0 3 silence) (filling 1 0) = [.asm, .frames, .chanConds] := by decide +kernel

/-- The same with room for one of its four frames, and with no room. -/
theorem witness_LostCellsAreFilled_full :
    (3 + ((2 : BitVec 4) - 3).toNat + 1) / 4 = 4 ∧ (filling 3 31).frames.length + 1 = 32 ∧
    (after (exec (.audio 0 2 silence) (filling 3 31))).frames.length = 32 ∧
    (after (exec (.audio 0 2 silence) (filling 3 31))).asm[0].drops = 3 ∧
    (filling 3 32).frames.length + 0 = 32 ∧ (after (exec (.audio 0 2 silence) (filling 3 32))).asm[0].drops = 6 ∧
    changed (.audio 0 2 silence) (filling 3 32) = [.asm, .dev, .chanConds] := by decide +kernel

/-! ### Recorder channels -/

/-- The first bytes of the payload of the cell a command offers on an idle return path. -/
def answer (n : Nat) (i : Instr) (s : State) : List Byte := (((after (exec i s)).ret.line.getD []).drop 4).take n

theorem witness_ControlCellsAreTested :
    controlRow (.record 0) = some (0, 1, [.idle, .stopped, .recording]) ∧
    State.reset.startup.state ≠ .ready ∧ answer 11 (.record 0) State.reset = [1, 7, 0, 0, 0, 0, 0, 0, 0, 0, 0] ∧
    ready.serves 0 .unbound ∧ answer 3 (.record 0) ready = [1, 2, 0] ∧
    stopping.serves 0 .stopping ∧ answer 11 (.record 0) stopping = [1, 9, 4, 0, 0, 5, 0, 0, 5, 0, 1] ∧
    controlRow (.seek 0 .absolute 1) = some (0, 3, [.stopped]) ∧ bound.serves 0 .idle ∧
    answer 3 (.seek 0 .absolute 1) bound = [3, 1, 1] ∧ changed (.seek 0 .absolute 1) bound = [.ret] := by decide +kernel

theorem witness_ControlCellsAreTested_unknown :
    answer 2 (.controlUnknown 0 0x7A) State.reset = [0x7A, 7] ∧ answer 2 (.controlUnknown 0 0) ready = [0, 2] ∧
    answer 2 (.controlUnknown 0 6) recording = [6, 11] ∧ recording.serves 0 .recording ∧
    changed (.controlUnknown 0 6) recording = [.ret] := by decide +kernel

/-- As `stopped`, with channel 2 IDLE on profile 2. -/
def second : State := stopped.modChan 1 fun ch => { ch with state := .idle, profile := some 2 }

theorem witness_RecordOpensLetter :
    second.serves 1 .idle ∧ second.chans[1].slot = none ∧ second.chans[1].profile = some 2 ∧ second.letters[1] = none ∧
    (∀ j : Slot, j < 1 → second.letters[j].isSome) ∧ second.eligible 1 = true ∧
    (∀ u : TakeId, u < 1 → second.eligible u = false) ∧ second.ctl.free ≠ 0 ∧
    changed (.record 1) second = [.ret, .chans, .letters, .letterNo, .takes] ∧
    answer 11 (.record 1) second = [1, 0, 3, 0, 0, 0, 0, 0, 0, 0, 2] ∧
    (after (exec (.record 1) { second with letterNo := 65535 })).letterNo = 1 := by decide +kernel

/-- The letter of `stoppedInside`, with a map of `n` entries more. -/
def longMap (n : Nat) : Letter := { someLetter with map := someLetter.map ++ List.replicate n ⟨5, 0, 1, .content⟩ }

theorem witness_RecordStartsOrResumes_start :
    stoppedInside.serves 0 .stopped ∧ stoppedInside.chans[0].cont = false ∧ stoppedInside.holdsOpen 0 0 someLetter ∧
    someLetter.length < 262143 ∧ stoppedInside.eligible 1 = true ∧
    (∀ u : TakeId, u < 1 → stoppedInside.eligible u = false) ∧ (∀ e ∈ someLetter.map, e.take ≠ 1) ∧
    someLetter.map.length + entriesNeeded someLetter.map 2 ≤ 40 ∧ stoppedInside.ctl.free ≠ 0 ∧
    insideTake someLetter.map 2 = some 0 ∧
    ((after (exec (.record 0) stoppedInside)).takes[0].map Take.refs) = some 2 ∧
    changed (.record 0) stoppedInside = [.ret, .chans, .letters, .takes] ∧
    (longMap 37).map.length + entriesNeeded (longMap 37).map 2 = 40 := by decide +kernel

theorem witness_RecordStartsOrResumes_resume :
    stopped.serves 0 .stopped ∧ stopped.chans[0].cont = true ∧ stopped.ctl.free ≠ 0 ∧ stopped.chanLength 0 < 262143 ∧
    changed (.record 0) stopped = [.ret, .chans] ∧ answer 3 (.record 0) stopped = [1, 0, 3] ∧
    recording.serves 0 .recording ∧ changed (.record 0) recording = [.ret] ∧
    bound.serves 0 .idle ∧ answer 2 (.record 0) { bound with letters := Vector.replicate 48 (some someLetter) } = [1, 3] ∧
    (stopped.modLetter 0 fun l => { l with contentFrames := 262143 }).chanLength 0 = 262143 ∧
    answer 2 (.record 0) (stopped.modLetter 0 fun l => { l with contentFrames := 262143 }) = [1, 10] := by decide +kernel

theorem witness_RecordStartsOrResumes_refuses :
    (∀ t : TakeId, ({ bound with takes := Vector.replicate 128 (some someTake) } : State).eligible t = false) ∧
    answer 2 (.record 0) { bound with takes := Vector.replicate 128 (some someTake) } = [1, 4] ∧
    answer 2 (.record 0) (stopped.modCtl fun k => { k with free := 0 }) = [1, 6] ∧
    (stoppedInside.setLetter 0 (some (longMap 38))).holdsOpen 0 0 (longMap 38) ∧
    40 < (longMap 38).map.length + entriesNeeded (longMap 38).map 2 ∧
    answer 2 (.record 0) (stoppedInside.setLetter 0 (some (longMap 38))) = [1, 5] := by decide +kernel

/-- The refusals with a letter to edit, and at the longest letter one that OVERWRITE inside it does not refuse. -/
theorem witness_RecordStartsOrResumes_edits :
    answer 2 (.record 0) { stoppedInside with takes := Vector.replicate 128 (some someTake) } = [1, 4] ∧
    (stoppedInside.modCtl fun k => { k with free := 0 }).eligible 1 = true ∧
    answer 2 (.record 0) (stoppedInside.modCtl fun k => { k with free := 0 }) = [1, 6] ∧
    (bound.modCtl fun k => { k with free := 0 }).serves 0 .idle ∧ bound.letters[0] = none ∧ bound.chans[0].slot = none ∧
    bound.eligible 0 = true ∧ answer 2 (.record 0) (bound.modCtl fun k => { k with free := 0 }) = [1, 6] ∧
    answer 2 (.record 0) ((stoppedInside.modChan 0 fun ch => { ch with mode := .overwrite }).modLetter 0
      fun l => { l with contentFrames := 262143 }) = [1, 0] := by decide +kernel

/-- RECORDING with `n` pieces in the buffer, a drop count and a number of frames queued. -/
def closing (n drops queued : Nat) : State :=
  { recording.modAsm 0 fun a => { a with buf := List.replicate n .filler, fresh := false, drops := drops } with
    frames := List.replicate queued (frameOf 0 0 [] 0) }

theorem witness_StopIsInFlight :
    recording.writingTake 0 = some 0 ∧
    (closing 3 7 31).serves 0 .recording ∧ (closing 3 7 31).asm[0].buf ≠ [] ∧ (closing 3 7 31).frames.length < 32 ∧
    changed (.stop 0) (closing 3 7 31) = [.asm, .frames, .chans, .stretch] ∧
    (after (exec (.stop 0) (closing 3 7 31))).stretch[0] = some { take := 0, count := 32, gap := 0 } ∧
    (closing 0 7 1).asm[0].buf = [] ∧ 0 < (closing 0 7 1).stretchFrames 0 ∧
    changed (.submit 0 none) (closing 0 7 1) = [.asm, .chans, .stretch] ∧
    (after (exec (.submit 0 none) (closing 0 7 1))).chans[0].pending = .submit 2 ∧
    (closing 0 7 0).stretchFrames 0 = 0 ∧ (closing 0 7 0).chans[0].idleTimer.isSome ∧
    changed (.idleStopExpiry 0) (closing 0 7 0) = [.asm, .chans, .writer, .stretch] ∧
    (after (exec (.idleStopExpiry 0) (closing 0 7 0))).chans[0].pending = .autoStop := by decide +kernel

/-- A padded frame dropped at 32 entries, with frames of the stretch still queued and without. -/
theorem witness_StopIsInFlight_dropped :
    (closing 3 7 32).frames.length = 32 ∧ (closing 3 7 32).stretchFrames 0 = 32 ∧
    changed (.stop 0) (closing 3 7 32) = [.asm, .chans, .stretch, .dev] ∧
    (after (exec (.stop 0) (closing 3 7 32))).stretch[0] = some { take := 0, count := 32, gap := 8 } ∧
    (filling 1 32).stretchFrames 0 = 0 ∧
    (after (exec (.submit 0 (some 1)) (filling 1 32))).writer.gapTurns = [0] ∧
    (after (exec (.submit 0 (some 1)) (filling 1 32))).stretch[0] = some { take := 0, count := 0, gap := 3 } := by
  decide +kernel

/-- STOPPING with a stretch-end report behind one of another channel. -/
def ended (p : PendingAction) : State :=
  { holding (stoppingChan p) with
    reports := [{ chan := 1, take := 9, kind := .long }, { chan := 0, take := 0, kind := .stretchEnd }] }

/-- A state with an empty open segment, and so an empty letter. -/
def emptied (s : State) : State :=
  (s.setLetter 0 (some { someLetter with contentFrames := 0, map := [⟨0, 0, 0, .content⟩] })).setTake 0
    (some (Take.issued 0))

/-- A state with an empty open segment behind five frames of take 3. -/
def emptySegment (s : State) : State :=
  (s.setLetter 0 (some { someLetter with map := [⟨3, 0, 5, .content⟩, ⟨0, 0, 0, .content⟩] })).setTake 0
    (some (Take.issued 0))

theorem witness_StopIsCompleted :
    (ended .stop).holdsOpen 0 0 someLetter ∧ (ended .stop).takes[0] = some someTake ∧ someTake.state = .writing ∧
    someTake.owner = 0 ∧ entryOf 0 someLetter.map = some ⟨0, 0, 5, .content⟩ ∧
    (ended .stop).chans[0].state = .stopping ∧
    changed (.stretchEnd 0) (ended .stop) = [.ret, .chans, .reports] ∧
    answer 3 (.stretchEnd 0) (ended .stop) = [2, 0, 2] ∧
    answer 10 (.stretchEnd 0) (ended .autoStop) = [1, 2, 0, 0, 5, 0, 0, 5, 0, 1] ∧
    (∀ u : TakeId, (ended .stop).writes 0 u = true → u = 0) ∧
    (emptied (ended .stop)).takes[0] = some (Take.issued 0) ∧
    changed (.stretchEnd 0) (emptied (ended .stop)) = [.ret, .chans, .letters, .takes, .reports] ∧
    (closing 0 0 0).stretchFrames 0 = 0 ∧ changed (.stop 0) (closing 0 0 0) = [.ret, .chans] := by decide +kernel

theorem witness_StopIsCompleted_autoStop :
    (emptySegment (ended .autoStop)).takes[0] = some (Take.issued 0) ∧
    changed (.stretchEnd 0) (emptySegment (ended .autoStop)) = [.ret, .chans, .letters, .takes, .reports] ∧
    (after (exec (.stretchEnd 0) (emptySegment (ended .autoStop)))).letters[0].map Letter.map =
      some [⟨3, 0, 5, .content⟩] ∧
    changed (.idleStopExpiry 0) (emptySegment (closing 0 0 0)) = [.ret, .chans, .letters, .takes] := by decide +kernel

theorem witness_StopIsCompleted_submit :
    changed (.stretchEnd 0) (ended (.submit 1)) =
      [.ret, .chans, .letters, .takes, .writer, .reports, .emitter] ∧
    answer 11 (.stretchEnd 0) (ended (.submit 1)) = [7, 0, 1, 0, 0, 5, 0, 0, 5, 0, 1] ∧
    ((after (exec (.submit 0 none) (emptySegment (closing 0 0 0)))).letters[0].map
      fun l => (l.map, l.state, l.priority)) = some ([⟨3, 0, 5, .content⟩], .queued, some 2) ∧
    (after (exec (.submit 0 none) (emptySegment (closing 0 0 0)))).takes[0] = none ∧
    answer 2 (.submit 0 (some 3)) (emptied (closing 0 0 0)) = [7, 8] ∧
    (after (exec (.stretchEnd 0) (emptied (ended (.submit 1))))).letters[0] = none := by decide +kernel

theorem witness_SeekAndModes :
    stopped.serves 0 .stopped ∧ changed (.seek 0 .relative (-9)) stopped = [.ret, .chans, .takes, .writer] ∧
    (after (exec (.seek 0 .relative (-9)) stopped)).chans[0].cursor = 0 ∧
    (after (exec (.seek 0 .relative 0x7FFFFF) stopped)).chans[0].cursor = 5 ∧
    (after (exec (.seek 0 .absolute 0x800000) stopped)).chans[0].cursor = 5 ∧
    (after (exec (.seek 0 .absolute 4) stopped)).takes[0].map Take.closeWrite = some true ∧
    changed (.stop 0) stopped = [.ret] ∧ answer 2 (.seek 0 .absolute 1) recording = [3, 1] ∧
    changed (.editmode 0 .overwrite) stopped = [.ret, .chans, .takes, .writer] ∧
    changed (.editmode 0 .insert) stopped = [.ret] ∧ changed (.instruct 0 true) bound = [.ret, .chans] ∧
    bound.serves 0 .idle ∧ changed (.instruct 0 true) stopped = [.ret, .chans, .takes, .writer] := by decide +kernel

theorem witness_EraseRemovesFrames :
    stoppedInside.serves 0 .stopped ∧ stoppedInside.holdsOpen 0 0 someLetter ∧ someLetter.map.length < 40 ∧
    (after (exec (.erase 0 0) stoppedInside)).letters[0].map Letter.map = some [⟨0, 0, 2, .content⟩] ∧
    (after (exec (.erase 0 1) stoppedInside)).letters[0].map Letter.map =
      some [⟨0, 0, 2, .content⟩, ⟨0, 3, 2, .content⟩] ∧
    40 ≤ (longMap 39).map.length ∧ (splitTake 0 2 3 (longMap 39).map).isSome ∧
    answer 2 (.erase 0 1) (stoppedInside.setLetter 0 (some (longMap 39))) = [6, 5] ∧
    (longMap 38).map.length < 40 ∧
    answer 2 (.erase 0 1) (stoppedInside.setLetter 0 (some (longMap 38))) = [6, 0] := by decide +kernel

theorem witness_SubmitQueuesLetter :
    stopped.chans[0].state = .stopped ∧ stopped.holdsOpen 0 0 someLetter ∧ 0 < someLetter.length ∧
    changed (.submit 0 (some 3)) stopped = [.ret, .chans, .letters, .takes, .writer, .emitter] ∧
    answer 11 (.submit 0 (some 3)) stopped = [7, 0, 1, 0, 0, 5, 0, 0, 5, 0, 1] ∧
    stopped.chans[0].abandonTimer.isSome ∧
    answer 10 (.abandonExpiry 0) stopped = [2, 1, 0, 0, 0, 0, 0, 5, 0, 1] ∧
    ((after (exec (.abandonExpiry 0) stopped)).letters[0].map fun l => (l.priority, l.flags.unattended)) =
      some (some 3, true) ∧
    (stopped.setLetter 0 (some { someLetter with contentFrames := 0, map := [] })).chanLength 0 = 0 ∧
    answer 2 (.submit 0 none) (stopped.setLetter 0 (some { someLetter with contentFrames := 0, map := [] })) =
      [7, 8] := by decide +kernel

theorem witness_DiscardFreesLetter :
    (closing 3 7 5).serves 0 .recording ∧ (closing 3 7 5).holdsOpen 0 0 someLetter ∧
    changed (.discard 0) (closing 3 7 5) = [.ret, .asm, .frames, .chans, .letters, .takes, .writer] ∧
    answer 11 (.discard 0) (closing 3 7 5) = [8, 0, 1, 0, 0, 0, 0, 0, 0, 0, 1] := by decide +kernel

theorem witness_PositionReports :
    stopping.serves 0 .stopping ∧ changed (.position 0) stopping = [.ret] ∧
    answer 11 (.position 0) stopping = [9, 0, 4, 0, 0, 5, 0, 0, 5, 0, 1] := by decide +kernel

/-- RECORDING or STOPPING with one stop report outstanding. -/
def reported (kind : ReportKind) (s : State) : State := { s with reports := [{ chan := 0, take := 0, kind := kind }] }

theorem witness_TakeWriterStopsChannel :
    bound.writes 0 0 = false ∧ changed (.longStop 0) (reported .long bound) = [.reports] ∧
    (reported .storeFull recording).holdsOpen 0 0 someLetter ∧
    (reported .storeFull recording).writingTake 0 = some 0 ∧ someTake.refs ≠ 0 ∧
    changed (.storeFullStop 0) (reported .storeFull recording) = [.ret, .chans, .takes, .writer, .reports] ∧
    answer 10 (.storeFullStop 0) (reported .storeFull recording) = [3, 2, 0, 0, 5, 0, 0, 5, 0, 1] ∧
    answer 2 (.longStop 0) (reported .long recording) = [4, 2] ∧
    (after (exec (.writeFault 0) (reported (.writeFault true) stopping))).ret.queue.map (·.payload.take 3) =
      [[2, 0, 2]] ∧
    ((after (exec (.writeFault 0) (reported (.writeFault true) recording))).takes[0].map Take.closeWrite) =
      some false ∧
    answer 10 (.writeFault 0) (reported (.lateFault 44) bound) = [5, 1, 0, 0, 0, 0, 0, 0, 0, 44] := by decide +kernel

theorem witness_TakeWriterStopsChannel_stopping :
    (reported .long (holding (stoppingChan .autoStop))).writingTake 0 = some 0 ∧
    answer 2 (.longStop 0) (reported .long (holding (stoppingChan .autoStop))) = [4, 2] ∧
    (after (exec (.longStop 0) (reported .long (holding (stoppingChan .autoStop))))).ret.queue = [] ∧
    (after (exec (.longStop 0) (reported .long (holding (stoppingChan (.submit 1)))))).ret.queue.map
      (·.payload.take 3) = [[7, 0, 1]] ∧
    ((after (exec (.longStop 0) (reported .long (holding (stoppingChan (.submit 1)))))).letters[0].map
      fun l => (l.state, l.priority)) = some (.queued, some 1) ∧
    (after (exec (.longStop 0) (reported .long (emptied (holding (stoppingChan (.submit 1))))))).letters[0] = none ∧
    changed (.storeFullStop 0) (reported .storeFull (emptySegment recording)) =
      [.ret, .chans, .letters, .takes, .reports] := by decide +kernel

theorem witness_ChannelsAreIsolated :
    channelRow (.discard 0) = some 0 ∧ channelRow (.audio 0 5 silence) = some 0 ∧
    exec (.discard 0) second = .next (after (exec (.discard 0) second)) ∧
    OnlyChannel 0 second (after (exec (.discard 0) second)) := ⟨rfl, rfl, rfl, by decide +kernel⟩

/-! ### The frame coder -/

/-- A queue entry of channel 1 and take 0 whose 128 samples are `v`. -/
def flat (v : Sample) (drops : Nat) : FrameEntry :=
  { chan := 0, take := 0, samples := List.replicate 128 v, patched := false, allFiller := false, drops := drops }

/-- A state with one frame queued. -/
def queuedFrame (s : State) : State := { s with frames := [flat 100 0] }

theorem witness_CoderTakesAndWritesBack_take :
    (queuedFrame recording).coder = .idle ∧ (queuedFrame recording).frames = flat 100 0 :: [] ∧
    (queuedFrame recording).writes 0 0 = true ∧
    changed .coderTakeFrame (queuedFrame recording) = [.frames, .coder] ∧
    (queuedFrame bound).writes 0 0 = false ∧ changed .coderTakeFrame (queuedFrame bound) = [.frames] := by decide +kernel

/-- A frame being coded at gain 1023 with a low-level run of 249. -/
def codingOf (f : FrameEntry) (s : State) : State :=
  { s with coder := .coding f { g := 1023, p := 5, q := 3, low := 249 } .default }

theorem witness_CoderTakesAndWritesBack :
    (codingOf (flat 20000 4) recording).coder = .coding (flat 20000 4) { g := 1023, p := 5, q := 3, low := 249 } .default ∧
    changed .coderArithmeticDone (codingOf (flat 20000 4) recording) = [.coder, .ctx, .chanConds] ∧
    ((after (exec .coderArithmeticDone (codingOf (flat 20000 4) recording))).chanConds[0].clip = .set) ∧
    (after (exec .coderArithmeticDone (codingOf (flat 20000 4) recording))).ctx[0].g = 896 ∧
    (flat 100 0).loud .default 1023 = true ∧
    (after (exec .coderArithmeticDone (codingOf (flat 100 0) recording))).chanConds[0].lowLevel = .set ∧
    ((after (exec .coderArithmeticDone (codingOf (flat 100 0) recording))).letters[0].map fun l => l.flags.lowLevel) =
      some true ∧
    (after (exec .coderArithmeticDone (codingOf (flat 100 0) recording))).ctx[0].low = 0 ∧
    changed .coderArithmeticDone (codingOf (flat 0 0) bound) = [.coder] := by decide +kernel

theorem witness_CodesDecode :
    exponentFor 4 190 = 5 ∧ (codeSamples 4 5 0 [100, 180, 150, -40]).overload = false ∧
    decodeSamplesFrom 5 0 [3, 3, -1, -6] = [96, 192, 160, -32] ∧ exponentFor 3 65535 = 12 ∧
    (codeSamples 3 12 (-32768) [32767, -32768]).overload = true := by decide +kernel

theorem witness_CodesDecode_bits :
    roundedCode 5 (-240) = -8 ∧ 2 * ((-240 : Int) - -8 * 2 ^ 5).natAbs = 2 ^ 5 ∧ (240 : Nat) < (-8 * 2 ^ 5 : Int).natAbs ∧
    (List.replicate 128 (-1 : Int)).length = 128 ∧ (packCodes 3 (List.replicate 128 (-1))).length = 48 ∧
    (speechRecord 3 12 (-2) true false true (List.replicate 128 (-1))).take 5 = [0x33, 0xC5, 0xFF, 0xFE, 0xFF] := by
  decide +kernel

/-- The cases of a frame's arithmetic: loud, in the hangover, past it, and all-filler. -/
theorem witness_FrameIsCoded :
    256 * (100 : Int) ≤ 100 * 256 + 128 ∧ 100 * 256 + 128 < 256 * (100 : Int) + 256 ∧
    ((flat 100 4).scaledBy 256).map Int.natAbs = List.replicate 128 100 ∧
    (codeFrame (flat 100 4) .default { g := 256, p := 5, q := 3, low := 7 }).ctx = { g := 264, p := 96, q := 0, low := 7 } ∧
    (codeFrame (flat 95 0) .default { g := 256, p := 95, q := 11, low := 7 }).ctx = { g := 256, p := 95, q := 12, low := 7 } ∧
    (codeFrame (flat 95 0) .default { g := 256, p := 95, q := 12, low := 7 }).content = .gaps 1 5 false ∧
    (codeFrame (flat 95 0) .default { g := 256, p := 95, q := 255, low := 7 }).ctx.q = 255 ∧
    (codeFrame { flat 0 0 with allFiller := true } .default CoderCtx.unbound).content = .gaps 1 0 true := by
  decide +kernel

/-- The gain control's cases, the gate off, FIXED mode, CLIP and the low-level run. -/
theorem witness_FrameIsCoded_gain :
    (codeFrame (flat 2600 0) .default CoderCtx.unbound).ctx.g = 240 ∧
    (codeFrame (flat 2560 0) .default CoderCtx.unbound).ctx.g = 256 ∧
    (codeFrame (flat 1536 0) .default CoderCtx.unbound).ctx.g = 256 ∧
    (codeFrame (flat 1535 0) .default CoderCtx.unbound).ctx.g = 264 ∧
    (codeFrame (flat 0 0) { Profile.default with thr := 0, mode := .fixed } CoderCtx.unbound).ctx.q = 0 ∧
    (codeFrame (flat 20000 0) .default { CoderCtx.unbound with g := 1023 }).clip = true ∧
    (codeFrame (flat 100 0) .default { g := 1023, p := 0, q := 0, low := 249 }).lowLevel = true ∧
    (codeFrame (flat 100 0) .default { g := 1023, p := 0, q := 0, low := 248 }).ctx.low = 249 := by decide +kernel

/-! ### The take writer and the store -/

/-- A SPEECH record of code width 4. -/
def speech : Content := .speech (0x34 :: List.replicate 67 0) false

/-- The coder delivers an item of channel 1 and take 0. -/
def deliveringOf (x : Content) (s : State) : State :=
  { s with coder := .delivering 0 [{ chan := 0, take := 0, content := x, dropGap := false }] }

/-- Take 0 of `recording` with another view. -/
def viewed (n : Nat) : State := recording.modTake 0 fun t => { t with view := List.replicate n 0 }

/-- Take 0 of `recording` without a block. -/
def noBlock : State := recording.setTake 0 (some (Take.issued 0))

/-- A take whose close write is outstanding. -/
def closingTake : Take := { someTake with state := .closed, closeWrite := true }

/-- The take writer about to make a close write. -/
def closeDue : State :=
  (stoppedInside.setTake 0 (some closingTake)).modWriter fun w => { w with closeQueue := [0] }

theorem witness_TakeWriterTakesWork_close :
    closeDue.writer.hand = none ∧ closeDue.takes[0] = some closingTake ∧ closingTake.current = some 100 ∧
    closeDue.storeFree ∧ changed .takeWriterTakeWork closeDue = [.writer, .ctl] := by decide +kernel

/-- STOPPING with a stop gap whose turn has come. -/
def gapDue : State :=
  { (stopping.modTake 0 fun t => { t with lastGap := none, view := List.replicate 497 0 }).modWriter
      fun w => { w with gapTurns := [0] } with
    stretch := stopping.stretch.set 0 (some { take := 0, count := 0, gap := 2 }) }

theorem witness_TakeWriterTakesWork_gap :
    gapDue.writer.hand = none ∧ gapDue.writer.closeQueue = [] ∧ gapDue.writer.gapTurns = 0 :: [] ∧
    gapDue.stretch[0] = some { take := 0, count := 0, gap := 2 } ∧ gapDue.live 0 0 = true ∧ gapDue.commitRoom 0 ≠ 0 ∧
    (gapDue.takes[0].map fun t => (t.current, t.lastGap, t.view.length)) = some (some 100, none, 497) ∧
    gapDue.storeFree ∧ changed .takeWriterTakeWork gapDue = [.writer, .stretch, .ctl] := by decide +kernel

theorem witness_TakeWriterTakesWork_item :
    (deliveringOf speech (viewed 432)).live 0 0 = true ∧ (deliveringOf speech (viewed 432)).commitRoom 0 ≠ 0 ∧
    speech.extends someTake = none ∧ speech.record.length = 68 ∧ (deliveringOf speech (viewed 432)).storeFree ∧
    (after (exec .takeWriterTakeWork (deliveringOf speech (viewed 432)))).ctl.st =
      .busy (.recordWrite 100 432 speech.record) false ∧
    (after (exec .takeWriterTakeWork (deliveringOf speech (viewed 433)))).ctl.st = .busy (.ringRead 0) false ∧
    (Content.gaps 1 7 true).extends someTake = some { offset := 3, count := 2, patched := true } ∧
    (after (exec .takeWriterTakeWork (deliveringOf (.gaps 1 7 true) recording))).ctl.st =
      .busy (.gapCountWrite 100 3 3) false ∧
    changed .takeWriterTakeWork (deliveringOf speech noBlock) = [.coder, .writer, .ctl] := by decide +kernel

theorem witness_TakeWriterTakesWork_stops :
    changed .takeWriterTakeWork (deliveringOf speech (noBlock.modCtl fun k => { k with free := 0 })) =
      [.coder, .reports, .dev] ∧
    (deliveringOf speech bound).live 0 0 = false ∧ (deliveringOf speech bound).stretch[0] = none ∧
    changed .takeWriterTakeWork (deliveringOf speech bound) = [.coder] ∧
    (deliveringOf speech (recording.modLetter 0 fun l => { l with contentFrames := 262143 })).commitRoom 0 = 0 ∧
    (after (exec .takeWriterTakeWork
      (deliveringOf speech (recording.modLetter 0 fun l => { l with contentFrames := 262143 })))).reports =
      [{ chan := 0, take := 0, kind := .long }] := by decide +kernel

/-- A walk step is needed for a block, the last one, or is due, or is the only work; take 3 waits in the walk list. -/
def walkable (blocks : Nat) (s : State) : State :=
  (s.setTake 3 (some { someTake with state := .closed, refs := 0, first := some 40, blocks := blocks })).modWriter
    fun w => { w with walkList := [3] }

theorem witness_TakeWriterTakesWork_walks :
    (after (exec .takeWriterTakeWork (deliveringOf speech (walkable 2 (noBlock.modCtl fun k => { k with free := 0 }))))).ctl.st
      = .busy (.headerRead 40) false ∧
    (after (exec .takeWriterTakeWork
      (deliveringOf speech (walkable 1 ((viewed 433).modCtl fun k => { k with free := 0 }))))).ctl.st
      = .busy (.ringWrite 8160 40) false ∧
    changed .takeWriterTakeWork (walkable 2 ready) = [.writer, .ctl] ∧
    ((walkable 2 recording).modWriter fun w => { w with walkFirst := true }).writer.walkList = 3 :: [] ∧
    (after (exec .takeWriterTakeWork
      (deliveringOf speech ((walkable 2 recording).modWriter fun w => { w with walkFirst := true })))).writer.hand =
      some (.walk 3 (.header false)) := by decide +kernel

/-- The take writer has an item of channel 1 and take 0 in hand, and an access is in progress. -/
def working (x : Content) (phase : StorePhase) (a : Access) (s : State) : State :=
  { s with
    ctl := { s.ctl with st := .busy a false }
    writer := { s.writer with hand := some (.job { chan := 0, take := 0, content := x, origin := .frame, phase := phase }) } }

/-- A short speech record stands for a real one in these states. -/
def storing (s : State) : State := working (.speech [0x34, 1] true) (.write false) (.recordWrite 100 6 [0x34, 1]) s

/-- OVERWRITE at cursor 2: two frames of take 0, then one of take 5. -/
def overwriting : State :=
  ((recording.modChan 0 fun ch => { ch with cursor := 2, mode := .overwrite }).setLetter 0
    (some { someLetter with contentFrames := 3, map := [⟨0, 0, 2, .content⟩, ⟨5, 4, 1, .content⟩] })).setTake 5
    (some { someTake with refs := 2 })

theorem witness_StoredFrameIsCommitted :
    (storing recording).serving (.recordWrite 100 6 [0x34, 1]) ∧ (storing recording).live 0 0 = true ∧
    (storing recording).holdsOpen 0 0 someLetter ∧ entryOf 0 someLetter.map = some ⟨0, 0, 5, .content⟩ ∧
    (storing recording).stretch[0] = none ∧ entryAfter 0 someLetter.map = none ∧
    changed .recordWriteDone (storing recording) = [.chans, .letters, .takes, .writer, .store, .ctl] ∧
    (after (exec .recordWriteDone (storing recording))).store = [(51218, 0x34), (51219, 1)] ∧
    (after (exec .recordWriteDone (storing overwriting))).letters[0].map Letter.map = some [⟨0, 0, 3, .content⟩] ∧
    ((after (exec .recordWriteDone (storing overwriting))).takes[5].map Take.refs) = some 1 := by decide +kernel

/-- An item of another origin in the same place. -/
def workingFrom (origin : Origin) (x : Content) (a : Access) (s : State) : State :=
  { s with
    ctl := { s.ctl with st := .busy a false }
    writer := { s.writer with
      hand := some (.job { chan := 0, take := 0, content := x, origin := origin, phase := .write false }) } }

/-- STOPPING with so many frames to come and a stop gap. -/
def stretching (count gap : Nat) : State :=
  { stopping with stretch := stopping.stretch.set 0 (some { take := 0, count := count, gap := gap }) }

/-- Gap frames: a record of their own, a count of the last gap, one more to come. -/
theorem witness_StoredFrameIsCommitted_gaps :
    (Content.gaps 1 7 false).extends someTake = none ∧ (Content.gaps 1 7 false).rest = none ∧
    ((after (exec .recordWriteDone (workingFrom .frame (.gaps 1 7 false) (.recordWrite 100 6 [0x20, 1, 7]) recording))).takes[0].map
      fun t => (t.view, t.lastGap)) = some (someTake.view ++ [0x20, 1, 7], some { offset := 6, count := 1, patched := false }) ∧
    (Content.gaps 2 7 true).extends someTake = some { offset := 3, count := 2, patched := true } ∧
    (Content.gaps 2 7 true).rest = some (.gaps 1 7 true) ∧ 2 ≤ recording.commitRoom 0 ∧
    (after (exec .recordWriteDone (workingFrom .dropGap (.gaps 2 7 true) (.gapCountWrite 100 3 3) recording))).ctl.st =
      .busy (.gapCountWrite 100 3 4) false ∧
    (after (exec .recordWriteDone (workingFrom .dropGap (.gaps 1 7 true) (.gapCountWrite 100 3 3) recording))).store =
      [(51216, 3)] ∧
    changed .recordWriteDone (workingFrom .dropGap (.gaps 1 7 true) (.gapCountWrite 100 3 3) recording) =
      [.chans, .letters, .takes, .writer, .store, .ctl] := by decide +kernel

/-- OVERWRITE inside the letter: the frame behind goes, and its take, which nothing names any more, enters the walk list. -/
theorem witness_StoredFrameIsCommitted_freed :
    (entryAfter 0 [⟨0, 0, 2, .content⟩, ⟨5, 4, 1, .content⟩]).map Segment.take = some 5 ∧
    (after (exec .recordWriteDone (workingFrom .dropGap (.gaps 2 7 true) (.gapCountWrite 100 3 3)
      (overwriting.setTake 5 (some { someTake with state := .closed }))))).writer =
      { hand := some (.job { chan := 0, take := 0, content := .gaps 1 7 true, origin := .dropGap, phase := .write false })
        closeQueue := [], gapTurns := [], walkList := [5], walkFirst := false } := by decide +kernel

/-- The stretch count falls, to the stop gap's turn and to the stretch end; a stop gap is followed by the stretch end. -/
theorem witness_StoredFrameIsCommitted_stretch :
    (after (exec .recordWriteDone (storing (stretching 2 0)))).stretch[0] = some { take := 0, count := 1, gap := 0 } ∧
    (after (exec .recordWriteDone (storing (stretching 1 4)))).writer.gapTurns = [0] ∧
    (after (exec .recordWriteDone (storing (stretching 1 0)))).reports = [{ chan := 0, take := 0, kind := .stretchEnd }] ∧
    (after (exec .recordWriteDone (workingFrom .stopGap (.gaps 1 0 true) (.gapCountWrite 100 3 3) stopping))).reports =
      [{ chan := 0, take := 0, kind := .stretchEnd }] ∧
    (after (exec .recordWriteDone (workingFrom .dropGap (.gaps 1 0 true) (.gapCountWrite 100 3 3) (stretching 1 0)))).stretch[0]
      = some { take := 0, count := 1, gap := 0 } := by decide +kernel

theorem witness_EditsPlayBack :
    plays (insertAt exampleMap 3 ⟨7, 0, 0, .content⟩) = plays exampleMap ∧
    plays (commitFrame 7 true ([⟨3, 0, 3, .content⟩] ++ ⟨7, 0, 2, .content⟩ :: [⟨4, 10, 1, .content⟩])) =
      [(3, 0), (3, 1), (3, 2), (7, 0), (7, 1), (7, 2)] ∧
    plays (eraseFrom 0 4 (4 + 2) exampleMap) = [(3, 0), (3, 1), (3, 2), (3, 3), (4, 11), (5, 0), (5, 1), (5, 2), (5, 3)] := by
  decide +kernel

/-- A close write in progress; the take may have lost its last entry. -/
def closeWriting (refs : Nat) : State :=
  { closeDue.setTake 0 (some { closingTake with refs := refs }) with
    ctl := { closeDue.ctl with st := .busy (.headerWrite 100 [0x6B, 0]) false }
    writer := { closeDue.writer with hand := some (.close 0 false), closeQueue := [] } }

theorem witness_HeaderWriteEnds :
    (closeWriting 1).serving (.headerWrite 100 [0x6B, 0]) ∧ (closeWriting 1).writer.hand = some (.close 0 false) ∧
    closingTake.stranded = false ∧ closingTake.state = .closed ∧ closingTake.first.isSome ∧
    (0 : TakeId) ∉ (closeWriting 1).writer.walkList ∧
    changed .headerWriteDone (closeWriting 1) = [.takes, .writer, .store, .ctl] ∧
    (after (exec .headerWriteDone (closeWriting 0))).writer.walkList = [0] ∧
    (working speech (.closeOld 101 false) (.headerWrite 100 [0x6B, 0]) recording).live 0 0 = true ∧
    (after (exec .headerWriteDone (working speech (.closeOld 101 false) (.headerWrite 100 [0x6B, 0])
      recording))).ctl.st = .busy (.recordWrite 101 0 speech.record) false := by decide +kernel

/-- A walk of take 0 in progress. -/
def walking (phase : WalkPhase) (a : Access) : State :=
  { ready.setTake 0 (some { someTake with state := .closed, refs := 0, blocks := 2 }) with
    ctl := { ready.ctl with st := .busy a false, head := 15, free := 15, tail := 8191, low := true }
    writer := { ready.writer with hand := some (.walk 0 phase), walkList := [0] } }

/-- A header at block 100 of take `t` that links block 33. -/
def linking (t : Byte) : List Host.Cell := [(51200, 0x6B), (51201, 0), (51202, 33), (51203, t)]

theorem witness_WalkReturnsBlocks :
    (walking (.header false) (.headerRead 100)).serving (.headerRead 100) ∧
    (((walking (.header false) (.headerRead 100)).changeStore (linking 0)).headerIn 100).next = 33 ∧
    (walking (.header false) (.headerRead 100)).isUsable 33 = true ∧
    (after (exec (.walkHeaderReadDone (linking 0)) (walking (.header false) (.headerRead 100)))).ctl.st =
      .busy (.ringWrite 8191 100) false ∧
    changed (.walkHeaderReadDone (linking 1)) (walking (.header false) (.headerRead 100)) =
      [.takes, .writer, .store, .ctl, .dev] ∧
    (after (exec .ringWriteDone (walking (.giveBack (some 33)) (.ringWrite 8191 100)))).ctl =
      { (walking (.giveBack none) (.ringWrite 0 0)).ctl with st := .idle, tail := 0, free := 16, low := false } ∧
    (after (exec .ringWriteDone (walking (.giveBack none) (.ringWrite 8191 100)))).takes[0] = none := by decide +kernel

/-- An item waits for its block, the free count at 16, the mark. -/
def allocating (s : State) : State :=
  working speech .allocate (.ringRead 8191) (s.modCtl fun k => { k with head := 8191, free := 16 })

theorem witness_RingReadAllocates :
    (allocating noBlock).serving (.ringRead 8191) ∧ (allocating noBlock).live 0 0 = true ∧
    (allocating noBlock).commitRoom 0 ≠ 0 ∧
    changed (.ringReadDone [(16382, 0), (16383, 40)]) (allocating noBlock) = [.takes, .writer, .store, .ctl, .dev] ∧
    (after (exec (.ringReadDone [(16382, 0), (16383, 40)]) (allocating noBlock))).ctl.head = 0 ∧
    (after (exec (.ringReadDone [(16382, 0), (16383, 40)]) (allocating noBlock))).latched .storeLow = true ∧
    (after (exec (.ringReadDone [(16382, 0), (16383, 40)]) (allocating noBlock))).ctl.st =
      .busy (.recordWrite 40 0 speech.record) false ∧
    (after (exec (.ringReadDone [(16382, 0), (16383, 40)]) (allocating recording))).ctl.st =
      .busy (.headerWrite 100 (someTake.header 0 40)) false := by decide +kernel

/-- REBUILDING at a ring slot. -/
def rebuilding (i : Nat) : State := ready.modCtl fun k => { k with st := .rebuilding i, free := 0, tail := 0 }

theorem witness_RebuildFillsRing :
    (rebuilding 8158).ctl.st = .rebuilding 8158 ∧ 8158 + 1 < (rebuilding 8158).ctl.settings.usable ∧
    (after (exec .rebuildWriteDone (rebuilding 8158))).store = [(16316, 0x1F), (16317, 0xFE)] ∧
    (rebuilding 8159).ctl.settings.usable ≤ 8159 + 1 ∧ (rebuilding 8159).ctl.waiting = [] ∧
    changed .rebuildWriteDone (rebuilding 8159) = [.store, .ctl] ∧
    (after (exec .rebuildWriteDone ((rebuilding 8159).modCtl
      fun k => { k with settings := { k.settings with mark := 8161 } }))).latched .storeLow = true ∧
    answer 7 .rebuildWriteDone { rebuilding 8159 with restart := some 5 } = [5, 0x13, 0, 0x1F, 0xE0, 0x1F, 0xE0] ∧
    (after (exec .rebuildWriteDone { rebuilding 8159 with
      startup := { ready.startup with state := .storeInit } })).startup.state = .ready := by decide +kernel

theorem witness_TimeoutsAreHandled :
    State.reset.ctl.settings.wait ≠ .onReady ∧ ready.ctl.settings.wait = .onReady ∧
    changed (.readyTimeout []) (allocating noBlock) = [.dev] ∧
    changed (.readyTimeout [false, true]) (rebuilding 3) = [.store, .dev] ∧
    changed (.readyTimeout [true]) (storing recording) = [.writer, .store, .dev] ∧
    changed (.readyTimeout []) (working (.speech [0x34, 1] true) (.write true) (.recordWrite 100 6 [0x34, 1]) recording) =
      [.letters, .writer, .reports, .ctl, .dev] := by decide +kernel

/-- The same events of header writes and walk reads. -/
theorem witness_TimeoutsAreHandled_headers :
    (working speech (.closeOld 101 false) (.headerWrite 100 [0x6B]) recording).serving (.headerWrite 100 [0x6B]) ∧
    changed (.readyTimeout [true]) (working speech (.closeOld 101 false) (.headerWrite 100 [0x6B]) recording) =
      [.writer, .store, .dev] ∧
    (after (exec (.readyTimeout []) (working speech (.closeOld 101 true) (.headerWrite 100 [0x6B]) recording))).ctl.st =
      .busy (.ringWrite 8160 101) false ∧
    changed (.readyTimeout [true]) (closeWriting 1) = [.writer, .store, .dev] ∧
    (after (exec (.readyTimeout []) ((closeWriting 1).modWriter fun w => { w with hand := some (.close 0 true) }))).reports =
      [{ chan := 0, take := 0, kind := .lateFault 1 }] ∧
    changed (.readyTimeout []) (walking (.header false) (.headerRead 100)) = [.writer, .dev] ∧
    (after (exec (.readyTimeout []) (walking (.header true) (.headerRead 100)))).latched .storeCheck = true ∧
    ((after (exec (.readyTimeout []) (walking (.header true) (.headerRead 100)))).takes[0].map Take.stranded) =
      some true := by decide +kernel

/-- A store that holds a take's current block as its header describes it. -/
def written (next : BlockNo) : State :=
  { ready with store := ((List.range 18).map (51200 + ·)).zip (someTake.header 0 next ++ someTake.view) }

theorem witness_WrittenBlocksPass :
    readRecords 167 someTake.view = some [⟨[0x20, 3, 7], 3⟩, ⟨[0x21, 2, 0], 2⟩] ∧
    (written 0).storeBytes ((written 0).blockBase 100) 18 = someTake.header 0 0 ++ someTake.view ∧
    (written 0).blockCheck 100 0 0 true = none ∧ (written 0).blockCheck 100 0 0 false = some .link ∧
    (written 33).isUsable 33 = true ∧ (written 33).blockCheck 100 0 0 false = none ∧
    (written 33).blockCheck 100 1 0 false = some .take ∧ (written 33).blockCheck 100 0 1 false = some .frame := by
  decide +kernel

/-! ### The letter emitter -/

/-- The letter QUEUED with priority 2 and stamp 0. -/
def queuedLetter : Letter := { someLetter with state := .queued, priority := some 2, stamp := some 0 }

/-- One letter in slot 0, in a state. -/
def slotted (x : LetterState) : State :=
  (ready.setLetter 0 (some { queuedLetter with state := x })).setTake 0 (some { someTake with state := .closed })

/-- The letter is being emitted, 11 bytes of a record left and 60 in the buffer, the cell before still sending. -/
def emitting : State :=
  { ready.setLetter 0 (some { queuedLetter with state := .emitting }) with
    hold := false
    pool := some []
    emitter := { ready.emitter with
      st := .sending, slot := some 0, kind := .content, stage := .frames, rest := List.replicate 11 0
      buf := List.replicate 64 7, placed := 3, poolSeq := 15 } }

/-- An aborted close is pending behind a cell. -/
def aborting : State :=
  { ready with
    hold := false
    pool := some []
    emitter := { ready.emitter with
      st := .abortPending, abort := some { chan := 4, missing := 70000, check := 0xABCD } } }

theorem witness_HoldStopsThePool_ends :
    changed .holdAssert emitting = [.hold] ∧ ready.hold = true ∧ changed .holdNegate ready = [.hold] ∧
    ({ ready with pool := some [] } : State).emitter.st = .idle ∧
    changed .poolCellEnd { ready with pool := some [] } = [.pool] ∧
    (∀ k : Slot, aborting.queuedIn k = none) ∧
    (after (exec .poolCellEnd aborting)).pool =
      some (cellBytes 5 4 0 0 7 [0x60, 2, 1, 0x11, 0x70, 0xAB, 0xCD]) ∧
    (after (exec .poolCellEnd aborting)).emitter.st = .idle := by decide +kernel

theorem witness_HoldStopsThePool_cell :
    emitting.pool = some [] ∧ emitting.hold = false ∧ emitting.emitter.buf.length = 64 ∧ emitting.emitter.rest ≠ [] ∧
    (after (exec .poolCellEnd emitting)).pool = some (cellBytes 1 4 15 0 64 (List.replicate 64 7)) ∧
    (after (exec .poolCellEnd emitting)).emitter.poolSeq = 0 ∧
    (after (exec .poolCellEnd emitting)).emitter.sent = 3 := by decide +kernel

/-- Two letters QUEUED, of priorities 2 and 3, the second about to gain an aging step. -/
def competing : State :=
  { (ready.setLetter 0 (some queuedLetter)).setLetter 5
      (some { queuedLetter with number := 2, priority := some 3, aging := 7 }) with
    emitter := { ready.emitter with stamp := 2 } }

/-- The same, a pool cell still sending. -/
def held : State := { competing with pool := some [] }

theorem witness_HoldStopsThePool :
    exec .poolCellEnd held = .next (after (exec .poolCellEnd held)) ∧ held.hold = true ∧
    (after (exec .poolCellEnd held)).emitter.slot = none ∧
    (after (exec .holdNegate held)).emitter.slot = some 0 := ⟨rfl, by decide +kernel⟩

theorem witness_PickIsTheMostUrgent :
    competing.winner = some (0, 2, 2) ∧ (competing.pick (0, 2, 2)).steps[5] = 1 ∧
    ((competing.pick (0, 2, 2)).letters[5].map Letter.aging) = some 0 ∧
    (competing.setLetter 5 (some { queuedLetter with number := 2, stamp := some 0xFFFFFFFF })).winner = some (5, 2, 3) ∧
    ({ competing with steps := competing.steps.set 5 2 } : State).winner = some (5, 1, 2) := by decide +kernel

/-- In IDLE the emitter does nothing while *HOLD* is asserted, and picks when it is negated. -/
theorem witness_PickIsTheMostUrgent_step :
    competing.emitter.st = .idle ∧ competing.emitStep.isNone ∧ ready.winner = none ∧
    (({ competing with hold := false } : State).emitStep.map fun t => (t.emitter.slot, t.emitter.st, t.emitter.kind, t.emitter.entry)) =
      some (some 0, .settling, .content, 0) ∧
    ({ competing with steps := competing.steps.set 5 3 } : State).effective 5 { queuedLetter with priority := some 3 } = 0 ∧
    competing.stampAge { queuedLetter with stamp := some 3 } = 2 ^ 32 - 1 := by decide +kernel

/-- The emitter or a verify reads block 100, the whole of take 0. -/
def reading (who : Reader) (next : BlockNo) : State :=
  { (written next).setTake 0 (some { someTake with state := .closed }) with
    hold := false
    pool := some []
    ctl := { ready.ctl with st := .busy (.blockRead who 100 0 0 (next = 0)) false } }

/-- The emitter reads it for the letter. -/
def emitReading : State :=
  { (reading .emitter 0).setLetter 0 (some { queuedLetter with state := .emitting }) with
    emitter := { ready.emitter with st := .reading, slot := some 0, kind := .content, stage := .sectionHead } }

theorem witness_EmitterReadsBlocks :
    emitReading.serving (.blockRead .emitter 100 0 0 true) ∧ emitReading.ctl.waiting = [] ∧
    emitReading.emitter.st = .reading ∧ emitReading.emitter.slot = some 0 ∧
    (emitReading.changeStore []).blockCheck 100 0 0 true = none ∧
    (after (exec (.emitterBlockReadDone []) emitReading)).emitter.buf =
      [0x20, 3, 7, 0x21, 2, 0] ++ [0x60, 0, 0, 0, 0] ++ wordBytes (crc16 [0x20, 3, 7, 0x21, 2, 0]) ∧
    (emitReading.changeStore [(51200, 0)]).blockCheck 100 0 0 true ≠ none ∧
    changed (.emitterBlockReadDone [(51200, 0)]) emitReading = [.store, .ctl, .emitter, .dev] ∧
    (after (exec (.readyTimeout []) emitReading)).emitter.buf = [0x60, 1, 0, 0, 5, 0xFF, 0xFF] := by decide +kernel

/-- The letter of three instruction frames of take 1 and five of take 0, at a place of its stream. -/
def streaming (e : Emitter) : State :=
  { (slotted .emitting).setLetter 0 (some { queuedLetter with
      state := .emitting, instrFrames := 3, map := [⟨1, 4, 3, .instruction⟩, ⟨0, 0, 5, .content⟩] }) with
    emitter := { e with slot := some 0, runCheck := 7 } }

/-- Block 100 of take 0 as the emitter holds it. -/
def heldBlock (first : Nat) (last : Bool) : HeldBlock :=
  { block := 100, take := 0, first := first, records := [⟨[0x20, 3, 7], 3⟩, ⟨[0x21, 2, 0], 2⟩], next := 33, last := last }

/-- At the content, so many of its frames placed. -/
def inContent (placed : Nat) (held : Option HeldBlock) : Emitter :=
  { ready.emitter with
    st := .sending, kind := .content, entry := 1, placedIn := placed, placed := 3 + placed, held := held, stage := .frames }

/-- LETTER_OPEN waits for a close write; the bytes of a record as room allows; the first SECTION. -/
theorem witness_LetterStreamIsPlaced :
    ready.emitStep.isNone ∧ (streaming { ready.emitter with st := .settling }).emitStep.isSome ∧
    ((streaming { ready.emitter with st := .settling }).setTake 0 (some closingTake)).emitStep.isNone ∧
    ((streaming { ready.emitter with st := .settling }).emitStep.map fun t => t.emitter.rest) =
      some [0x50, 0, 1, 1, 1, 2, 0, 0, 0, 3, 0, 0, 5] ∧
    ((streaming { inContent 0 none with buf := List.replicate 62 0, rest := [1, 2, 3] }).emitStep.map
      fun t => (t.emitter.buf.length, t.emitter.rest)) = some (64, [3]) ∧
    ((streaming { ready.emitter with st := .sending, kind := .instruction, stage := .opening }).emitStep.map
      fun t => t.emitter.rest) = some [0x40, 0, 0, 0, 3] := by decide +kernel

/-- A record of the held block, cut to what is left; the next block, the first one, a shortfall. -/
theorem witness_LetterStreamIsPlaced_frames :
    ((streaming (inContent 1 (some (heldBlock 0 true)))).emitStep.map fun t => (t.emitter.rest, t.emitter.restFrames)) =
      some ([0x20, 2, 7], 2) ∧
    ((streaming (inContent 4 (some (heldBlock 0 true)))).emitStep.map fun t => t.emitter.rest) = some [0x21, 1, 0] ∧
    (streaming (inContent 4 (some (heldBlock 0 true)))).storeFree ∧
    ((streaming { inContent 2 (some (heldBlock 0 false)) with held := some { heldBlock 0 false with records := [] } }).emitStep.map
      fun t => t.ctl.st) = some (.busy (.blockRead .emitter 33 0 0 false) false) ∧
    ((streaming { inContent 2 none with held := some { heldBlock 0 true with records := [] } }).emitStep.map
      fun t => (t.emitter.rest, t.latched .storeCheck)) = some ([0x60, 1, 0, 0, 3, 0, 7], true) ∧
    ((streaming (inContent 2 (some (heldBlock 3 false)))).emitStep.map fun t => t.ctl.st) =
      some (.busy (.blockRead .emitter 100 0 0 true) false) ∧
    ((streaming (inContent 2 none)).emitStep.map fun t => t.ctl.st) =
      some (.busy (.blockRead .emitter 100 0 0 true) false) := by decide +kernel

/-- Behind an entry: the next of its kind, the CONTENT section, the end. -/
theorem witness_LetterStreamIsPlaced_parts :
    (((streaming { inContent 3 none with kind := .instruction, entry := 0 }).modLetter 0 fun l => { l with
      instrFrames := 5, map := l.map ++ [⟨2, 0, 2, .instruction⟩] }).emitStep.map fun t => (t.emitter.entry, t.emitter.rest)) =
      some (2, []) ∧
    ((streaming { inContent 3 none with kind := .instruction, entry := 0 }).emitStep.map
      fun t => (t.emitter.entry, t.emitter.rest)) = some (1, [0x40, 1, 0, 0, 5]) ∧
    ((streaming (inContent 5 none)).emitStep.map fun t => t.emitter.rest) = some [0x60, 0, 0, 0, 0, 0, 7] := by
  decide +kernel

/-- The last cell of a letter waits for the pool link. -/
def closingStream (status : CloseStatus) : State :=
  { streaming { inContent 5 none with stage := .closing status, buf := List.replicate 7 1 } with
    hold := false, pool := some [] }

theorem witness_LettersEnd :
    (closingStream .complete).pool.isSome ∧ (closingStream .complete).hold = false ∧
    (closingStream .complete).chans[0].state = .unbound ∧
    (after (exec .poolCellEnd (closingStream .complete))).pool = some (cellBytes 1 4 0 0 7 (List.replicate 7 1)) ∧
    (after (exec .poolCellEnd (closingStream .complete))).letters[0] = none ∧
    answer 10 .poolCellEnd ((closingStream .complete).modChan 0 fun _ => bound.chans[0]) =
      [6, 1, 0, 0, 0, 0, 0, 0, 0, 1] ∧
    ((after (exec .poolCellEnd (closingStream .storeFault))).letters[0].map Letter.state) = some .faulted ∧
    ((after (exec .holdNegate { closingStream .storeFault with hold := true, pool := none })).letters[0].map Letter.state) =
      some .faulted ∧
    (after (exec .holdNegate { closingStream .complete with hold := true, pool := none })).emitter.st = .idle := by
  decide +kernel

/-! ### Management -/

/-- A short MGMT cell, and an empty one. -/
def short (used : Byte) : Mgmt := { tag := 9, used := used, intact := false }

theorem witness_MgmtCellsAreTested :
    mgmtRow (.storeRead good) = some (good, 0x0E, false) ∧ mgmtRow (.statusRead good) = some (good, 0x0F, true) ∧
    answer 3 (.storeRead (short 63)) ready = [9, 0x0E, 3] ∧ answer 3 (.storeRead (short 1)) ready = [9, 0, 3] ∧
    answer 3 (.mgmtUnknown (short 0) 0x77) ready = [0, 0, 3] ∧ changed (.storeRead (short 63)) ready = [.ret, .dev] ∧
    answer 3 (.storeRead good) { ready with restart := some 1 } = [9, 0x0E, 5] ∧
    answer 3 (.storeRead good) State.reset = [9, 0x0E, 7] ∧
    answer 3 (.mgmtUnknown good 0x77) { ready with restart := some 1 } = [9, 0x77, 5] ∧
    answer 3 (.mgmtUnknown good 0x77) State.reset = [9, 0x77, 1] := by decide +kernel

/-- The default profile of R27 as R192 lays it out, channel 1 bound to it, and an id out of range. -/
theorem witness_ProfileReadReports :
    bound.chans[0].profile = some 1 ∧
    answer 22 (.profileRead good 1) bound = [9, 3, 0, 1, 4, 12, 0, 96, 1, 2, 1, 0, 8, 0, 0, 64, 3, 0xFF, 0, 0, 1, 1] ∧
    answer 5 (.profileRead good 15) ready = [9, 3, 0, 15, 4] ∧ answer 3 (.profileRead good 16) ready = [9, 3, 2] ∧
    changed (.profileRead good 1) bound = [.ret] := by decide +kernel

theorem witness_ReadsReport :
    answer 11 (.ident good) State.reset = [9, 1, 0, 0x24, 0x16, 1, 0, 0, 0, 0, 24] ∧
    answer 8 (.storeRead good) ready = [9, 0x0E, 0, 0x1F, 0xE0, 0x1F, 0xE0, 0] ∧
    answer 8 (.channelRead good 1) stopped = [9, 5, 0, 1, 2, 1, 0, 0] ∧
    answer 3 (.channelRead good 24) ready = [9, 5, 0] ∧ answer 3 (.channelRead good 25) ready = [9, 5, 2] ∧
    answer 3 (.channelRead good 0) ready = [9, 5, 2] ∧
    answer 9 (.letterList good 0) stopped = [9, 7, 0, 1, 255, 0, 1, 0, 1] ∧
    answer 3 (.letterList good 48) ready = [9, 7, 2] ∧ answer 5 (.letterRead good 47) ready = [9, 8, 0, 47, 0] ∧
    answer 3 (.letterRead good 48) ready = [9, 8, 2] ∧
    answer 12 (.mapRead good 0 0) stopped = [9, 9, 0, 0, 1, 0, 1, 1, 0, 1, 0, 0] ∧
    answer 3 (.mapRead good 0 40) stopped = [9, 9, 0] ∧ answer 3 (.mapRead good 0 41) stopped = [9, 9, 2] ∧
    answer 3 (.mapRead good 48 0) stopped = [9, 9, 2] := by decide +kernel

/-- A FIXED profile with gain 100, as bytes, and one whose width is 6. -/
def fixedProfile : Profile := { Profile.default with mode := .fixed, g0 := 100 }
/-- See `fixedProfile`. -/
def profileCell (p : Profile) : Vector Byte 16 := Vector.ofFn fun i => byteAt p.bytes i.val

theorem witness_ProfilesAndBindings :
    Profile.read (profileCell fixedProfile).toList = some fixedProfile ∧
    changed (.profileWrite good 1 (profileCell fixedProfile)) stopped = [.ret, .ctx, .profiles] ∧
    (after (exec (.profileWrite good 1 (profileCell fixedProfile)) stopped)).ctx[0].g = 100 ∧
    answer 6 (.profileWrite good 1 (profileCell fixedProfile)) stopped = [9, 2, 0, 1, 1, 1] ∧
    answer 3 (.profileWrite good 16 (profileCell fixedProfile)) ready = [9, 2, 2] ∧
    Profile.read (profileCell { fixedProfile with width := 6 }).toList = none ∧
    answer 3 (.profileWrite good 1 (profileCell { fixedProfile with width := 6 })) ready = [9, 2, 2] ∧
    answer 6 (.channelBind good 24 15) ready = [9, 4, 0, 24, 15, 1] ∧
    answer 3 (.channelBind good 25 0) ready = [9, 4, 2] ∧ answer 3 (.channelBind good 1 16) ready = [9, 4, 2] ∧
    answer 3 (.channelBind good 1 0) stopped = [9, 4, 4] ∧ answer 6 (.channelBind good 1 255) bound = [9, 4, 0, 1, 255, 0] ∧
    changed (.channelBind good 1 255) bound = [.ret, .chans] ∧ answer 3 (.channelBind good 1 255) ready = [9, 4, 4] := by
  decide +kernel

theorem witness_ChannelIsCleared :
    answer 3 (.channelClear good 0) ready = [9, 6, 2] ∧ answer 7 (.channelClear good 1) bound = [9, 6, 0, 1, 1, 0, 0] ∧
    changed (.channelClear good 1) bound = [.ret] ∧
    answer 7 (.channelClear good 1) (closing 2 3 4) = [9, 6, 0, 1, 1, 0, 1] ∧
    changed (.channelClear good 1) (closing 2 3 4) =
      [.ret, .asm, .frames, .chans, .letters, .takes, .writer] := by decide +kernel

/-- A verify in flight. -/
def verifyOf : VerifyCtx :=
  { tag := 9, slot := 0, number := 1, prior := .queued, todo := [0], k := 1, block := 100, first := 0, read := 0
    bad := 0, firstBad := none, waits := false }

theorem witness_LetterCommandsAct :
    answer 3 (.letterVerify good 48 1) ready = [9, 10, 2] ∧ answer 3 (.emitAgain good 48 1) ready = [9, 11, 2] ∧
    answer 3 (.drop good 48 1) ready = [9, 12, 2] ∧ answer 3 (.letterVerify good 0 2) (slotted .queued) = [9, 10, 4] ∧
    answer 3 (.emitAgain good 47 1) ready = [9, 11, 4] ∧ answer 3 (.drop good 0 0) ready = [9, 12, 4] ∧
    (slotted .queued).storeFree ∧
    changed (.letterVerify good 0 1) (slotted .queued) = [.letters, .ctl, .verify] ∧
    (after (exec (.letterVerify good 0 1) (slotted .faulted))).ctl.st = .busy (.blockRead .verify 100 0 0 true) false ∧
    answer 6 (.drop good 0 1) (slotted .faulted) = [9, 12, 0, 0, 0, 1] ∧
    answer 3 (.drop good 0 1) (slotted .verifying) = [9, 12, 5] ∧
    answer 3 (.drop good 0 1) (slotted .emitting) = [9, 12, 4] ∧
    answer 3 (.letterVerify good 0 1) (slotted .opened) = [9, 10, 4] ∧
    answer 6 (.emitAgain good 0 1) (slotted .faulted) = [9, 11, 0, 0, 0, 1] ∧
    answer 3 (.emitAgain good 0 1) (slotted .queued) = [9, 11, 4] ∧
    ({ slotted .verifying with verify := some verifyOf } : State).verify.isSome ∧
    answer 3 (.letterVerify good 0 1) { slotted .verifying with verify := some verifyOf } = [9, 10, 5] ∧
    answer 3 (.letterVerify good 0 1) { slotted .queued with verify := some verifyOf } = [9, 10, 5] := by decide +kernel

/-- It reads block 100 of take 0, which is its last block or links block 33. -/
def verifying (next : BlockNo) : State :=
  { (reading .verify next).setLetter 0 (some { queuedLetter with state := .verifying }) with
    hold := true
    verify := some verifyOf }

theorem witness_VerifyReadsBlocks :
    (verifying 33).serving (.blockRead .verify 100 0 0 false) ∧ (verifying 33).verify = some verifyOf ∧
    ((verifying 33).changeStore []).blockCheck 100 0 0 false = none ∧
    (after (exec (.verifyBlockReadDone []) (verifying 33))).ctl.st = .busy (.blockRead .verify 33 0 5 false) false ∧
    ((verifying 0).changeStore []).blockCheck 100 0 0 true = none ∧
    answer 13 (.verifyBlockReadDone []) (verifying 0) = [9, 10, 0, 0, 0, 1, 0, 1, 0, 0, 0, 0, 0] ∧
    changed (.verifyBlockReadDone []) (verifying 0) = [.ret, .letters, .ctl, .verify] ∧
    ((verifying 0).changeStore [(51200, 0)]).blockCheck 100 0 0 true = some .mark ∧
    answer 13 (.verifyBlockReadDone [(51200, 0)]) (verifying 0) = [9, 10, 0, 0, 0, 1, 0, 1, 0, 1, 0, 100, 1] ∧
    ((after (exec (.verifyBlockReadDone [(51200, 0)]) (verifying 0))).letters[0].map fun l => l.flags.verifyFailed) =
      some true := by decide +kernel

/-- A take with a frame less than its blocks hold, a verify that goes on to take 3, and a read that times out. -/
theorem witness_VerifyReadsBlocks_more :
    answer 13 (.verifyBlockReadDone []) ((verifying 0).modTake 0 fun t => { t with frames := 4 }) =
      [9, 10, 0, 0, 0, 1, 0, 1, 0, 1, 0, 100, 8] ∧
    ((after (exec (.verifyBlockReadDone []) { walkable 1 (verifying 0) with
      verify := some { verifyOf with todo := [0, 3] } })).verify.map fun v => (v.todo, v.block, v.read)) = some ([3], 40, 1) ∧
    (after (exec (.verifyBlockReadDone []) { walkable 1 (verifying 0) with
      verify := some { verifyOf with todo := [0, 3] } })).ctl.st = .busy (.blockRead .verify 40 3 0 true) false ∧
    answer 13 (.readyTimeout []) (verifying 0) = [9, 10, 0, 0, 0, 1, 0, 1, 0, 1, 0, 100, 9] := by decide +kernel

/-- A peek in flight. -/
def peeking (block offset : BitVec 16) : State :=
  { written 0 with
    ctl := { ready.ctl with st := .busy (.peekRead block offset) false }
    peek := some { tag := 9, block := block, offset := offset } }

theorem witness_PeekReadsBytes :
    answer 3 (.blockPeek good 8192 0) ready = [9, 13, 2] ∧ answer 3 (.blockPeek good 0 47) ready = [9, 13, 2] ∧
    answer 3 (.blockPeek good 0 528) ready = [9, 13, 2] ∧ answer 3 (.blockPeek good 0 48) (peeking 100 0) = [9, 13, 5] ∧
    ready.storeFree ∧ changed (.blockPeek good 8191 480) ready = [.ctl, .peek] ∧
    (peeking 100 0).serving (.peekRead 100 0) ∧
    answer 12 (.peekReadDone []) (peeking 100 0) = [9, 13, 0, 0, 100, 0, 0, 0x6B, 0, 0, 0, 2] ∧
    changed (.peekReadDone []) (peeking 100 0) = [.ret, .ctl, .peek] ∧
    answer 3 (.readyTimeout []) (peeking 100 480) = [9, 13, 6] := by decide +kernel

/-- MISROUTE and channel 3's CLIP are LATCHED, new. -/
def conditioned : State := (ready.latch .misroute).latchClip 2

theorem witness_ConditionsAreReadAndCleared :
    answer 13 (.statusRead good) conditioned = [9, 15, 0, 0x20, 4, 0x20, 4, 0x3F, 0xFF, 1, 1, 3, 0x22] ∧
    changed (.statusRead good) conditioned = [.ret, .dev, .chanConds] ∧
    answer 3 (.statusClear good 0 25 0) ready = [9, 16, 2] ∧
    answer 12 (.statusClear good 4 3 7) conditioned = [9, 16, 0, 0, 0, 0, 0, 3, 0, 0, 4, 2] ∧
    answer 3 (.statusClear good 0xFFFF 24 0) conditioned = [9, 16, 0] ∧
    (after (exec (.statusClear good 0xFFFF 24 7) conditioned)).chanConds[2].clip = .set ∧
    answer 5 (.maskWrite good 0xFF 0x81) ready = [9, 17, 0, 0x3F, 0x81] ∧
    changed (.maskWrite good 0xFF 0x81) ready = [.ret, .warnMask] := by decide +kernel

/-- The fields of these replies: MISROUTE and CHANNEL_COND, both new, and what is left of them. -/
theorem witness_ConditionsAreReadAndCleared_fields :
    (∀ i : Fin 13, (0x2004 : BitVec 16).getLsbD i = conditioned.dev[i].latched ∧
      (0x2004 : BitVec 16).getLsbD i = conditioned.dev[i].fresh) ∧
    (∃ c : Chan, conditioned.chanConds[c].any = true) ∧ (∃ c : Chan, conditioned.chanConds[c].anyFresh = true) ∧
    answer 12 (.statusClear good 0 0 7) conditioned = [9, 16, 0, 0x20, 4, 0x20, 4, 0, 0, 0, 0, 0] ∧
    (∀ i : Fin 13, (0 : BitVec 16).getLsbD i = (conditioned.dev[i].latched && !(4 : BitVec 16).getLsbD i) ∧
      (4 : BitVec 16).getLsbD i = ((4 : BitVec 16).getLsbD i && conditioned.dev[i].latched && conditioned.dev[i].fresh)) := by
  decide +kernel

/-- A save with these pieces left. -/
def saving (polling : Bool) (pieces : List (Nat × List Byte)) : State :=
  { ready with save := some { tag := 9, pieces := pieces, polling := polling } }

theorem witness_SaveWritesPieces :
    answer 3 (.configSave good) (saving true [(0, [1])]) = [9, 18, 5] ∧ changed (.configSave good) ready = [.save] ∧
    ready.savePieces.map Prod.fst = [0, 0x40, 0x50, 0x60, 0x70, 0x80, 0x90, 0xA0, 0xB0, 0xC0, 0xD0, 0xE0, 0xF0, 0x100,
      0x110, 0x120, 0x130, 0x140, 0x150] ∧ ready.savePieces.map (fun x => x.2.length) = List.replicate 18 16 ++ [10] ∧
    changed (.configPieceTransferEnd true []) (saving false [(0, [1])]) = [.save] ∧
    changed (.configPieceTransferEnd false [true]) (saving false [(0, [1])]) = [.cfgMem, .ret, .dev, .save] ∧
    answer 3 (.configWriteTimeout []) (saving true [(0, [1])]) = [9, 18, 6] ∧
    (after (exec .configWriteAck (saving true [(3, [1, 2]), (5, [6])]))).cfgMem = [(3, 1), (4, 2)] ∧
    changed .configWriteAck (saving true [(3, [1, 2]), (5, [6])]) = [.cfgMem, .save] ∧
    answer 3 .configWriteAck (saving true [(5, [6])]) = [9, 18, 0] := by decide +kernel

theorem witness_RestartClearsThePart :
    answer 3 (.restart good) (saving false [(0, [1])]) = [9, 19, 5] ∧
    changed (.restart good) (closing 2 3 4) = [.asm, .frames, .chans, .letters, .takes, .ctl, .restart] ∧
    (after (exec (.restart good) emitReading)).ctl.st = .busy (.blockRead .emitter 100 0 0 true) true ∧
    (after (exec (.restart good) emitting)).emitter.st = .idle ∧
    (after (exec (.restart good) { emitting with emitter := { emitting.emitter with begun := true } })).emitter.abort =
      some { chan := 0, missing := 5, check := 0xFFFF } ∧
    (after (exec (.restart good) emitting)).emitter.poolSeq = 15 := by decide +kernel

/-! ### What every command keeps -/

theorem witness_StateMovesWhereSaid_conditions :
    conditioned.latched .misroute = true ∧ exec .holdAssert conditioned = .next (after (exec .holdAssert conditioned)) ∧
    (after (exec .holdAssert conditioned)).latched .misroute = true ∧
    (after (exec (.statusClear good 4 0 0) conditioned)).latched .misroute = false :=
  ⟨by decide +kernel, rfl, by decide +kernel⟩

/-- A RECORDING channel with a STOP waiting, beside UNBOUND ones. -/
def busyPart : State := (closing 3 7 31).withPending [.stop 0]

theorem witness_busyPart_steps : step busyPart = .next (after (step busyPart)) := rfl

theorem witness_StepKeepsMemoriesAndCounts_memories : MemoriesCanonical busyPart := by unfold MemoriesCanonical; decide +kernel

theorem witness_StepKeepsMemoriesAndCounts : CountsBounded busyPart := by
  have port : busyPart.port.sync = .hunt := by decide +kernel
  refine ⟨fun n h => ?_, fun n h => ?_, by decide +kernel, by decide +kernel, by decide +kernel, by decide +kernel,
    by decide +kernel, by decide +kernel⟩
  · rw [port] at h; cases h
  · rw [port] at h; cases h

theorem witness_ChannelsDisciplined : ChannelsDisciplined busyPart := by
  have chans : ∀ c : Chan, busyPart.chans[c] = recordingChan ∨ busyPart.chans[c] = Channel.reset := by decide +kernel
  refine ⟨fun c => ?_, by decide +kernel⟩
  rcases chans c with h | h <;> rw [h]
  · exact ⟨rfl, rfl, rfl, rfl, rfl⟩
  · exact ⟨rfl, rfl, rfl, rfl, rfl, rfl, rfl⟩

theorem witness_GainsBounded : GainsBounded busyPart := by
  have gains : ∀ (c : Chan) (p : ProfileId), busyPart.profiles[p].gmin ≤ busyPart.ctx[c].g ∧
      busyPart.ctx[c].g ≤ busyPart.profiles[p].gmax ∧
      (busyPart.profiles[p].mode = .fixed → busyPart.ctx[c].g = busyPart.profiles[p].g0) := by decide +kernel
  exact ⟨by decide +kernel, fun c p _ => gains c p, by decide +kernel⟩

theorem witness_StepKeepsMemoriesAndCounts_conditions : ConditionsSound busyPart := by unfold ConditionsSound; decide +kernel

/-- Slot 0 holds the letter, the others are FREE. -/
theorem busyPart_letters (k : Slot) (l : Letter) (h : busyPart.letters[k] = some l) : k = 0 ∧ l = someLetter := by
  have slots : ∀ k : Slot, busyPart.letters[k] = if k = 0 then some someLetter else none := by decide +kernel
  rw [slots k] at h
  by_cases zero : k = 0
  · rw [if_pos zero] at h
    exact ⟨zero, (Option.some.inj h).symm⟩
  · rw [if_neg zero] at h
    cases h

theorem witness_StepKeepsLettersHeld : LettersHeld busyPart := by
  have held : ∀ (c : Chan) (k : Slot), busyPart.chans[c].slot = some k → c = 0 ∧ k = 0 := by decide +kernel
  refine ⟨fun c k h => ?_, fun k l h _ => ?_, ?_, fun k h => ?_, fun k l h e => ?_, fun v h => ?_, fun k l h e => ?_⟩
  · obtain ⟨rfl, rfl⟩ := held c k h
    exact ⟨someLetter, by decide +kernel, rfl, rfl⟩
  · obtain ⟨rfl, rfl⟩ := busyPart_letters k l h
    decide +kernel
  · show busyPart.emitter.slot = none
    decide +kernel
  · rw [show busyPart.emitter.slot = none by decide +kernel] at h
    cases h
  · obtain ⟨rfl, rfl⟩ := busyPart_letters k l h
    cases e
  · rw [show busyPart.verify = none by decide +kernel] at h
    cases h
  · obtain ⟨rfl, rfl⟩ := busyPart_letters k l h
    cases e

theorem witness_LetterSums : LetterSums busyPart := by
  refine ⟨fun k l h => ?_, fun j h => ?_⟩
  · obtain ⟨rfl, rfl⟩ := busyPart_letters k l h
    decide +kernel
  · rw [show busyPart.writer.hand = none by decide +kernel] at h
    cases h

/-- Take 0 is held, the others are FREE. -/
theorem busyPart_takes (t : TakeId) (take : Take) (h : busyPart.takes[t] = some take) : t = 0 ∧ take = someTake := by
  have entries : ∀ t : TakeId, busyPart.takes[t] = if t = 0 then some someTake else none := by decide +kernel
  rw [entries t] at h
  by_cases zero : t = 0
  · rw [if_pos zero] at h
    exact ⟨zero, (Option.some.inj h).symm⟩
  · rw [if_neg zero] at h
    cases h

/-- Channel 1 writes take 0, and no other channel a take. -/
theorem busyPart_writes (c : Chan) (t : TakeId) (h : busyPart.writes c t = true) : c = 0 ∧ t = 0 := by
  have only : ∀ (c : Chan) (t : TakeId), busyPart.writes c t = true → c = 0 ∧ t = 0 := by decide +kernel
  exact only c t h

theorem witness_ReferencesCounted : ReferencesCounted busyPart := by
  have maps : ∀ k : Slot, ∀ e ∈ busyPart.slotMap k, e.take = 0 ∧ k = 0 := by decide +kernel
  have walks : busyPart.writer.walkList = [] := by decide +kernel
  refine ⟨fun t take h => ?_, fun k e h => ?_, by decide +kernel, fun t h => ?_, fun t take h => ?_, fun t h => ?_⟩
  · obtain ⟨rfl, rfl⟩ := busyPart_takes t take h
    decide +kernel
  · obtain ⟨take, rfl⟩ := maps k e h
    have entry : ∀ t : TakeId, t = 0 → busyPart.takes[t] = some someTake := by decide +kernel
    exact ⟨someTake, entry e.take take, rfl⟩
  · rw [walks] at h
    cases h
  · obtain ⟨rfl, rfl⟩ := busyPart_takes t take h
    decide +kernel
  · rw [show busyPart.writer.walking = none by decide +kernel] at h
    cases h

theorem witness_WritingTakesNamed : WritingTakesNamed busyPart := by
  have writes : busyPart.writes 0 0 = true := by decide +kernel
  have states : ∀ c : Chan, (busyPart.chans[c].state = .recording ∨ busyPart.chans[c].state = .stopping → c = 0) ∧
      busyPart.chans[c].state ≠ .stopped := by decide +kernel
  refine ⟨fun t take h _ => ?_, fun c t u ht hu => ?_, fun c => ⟨fun h => ?_, fun h => absurd h (states c).2⟩⟩
  · obtain ⟨rfl, rfl⟩ := busyPart_takes t take h
    exact ⟨by decide +kernel, someLetter, by decide +kernel, rfl, ⟨0, 0, 5, .content⟩, by decide +kernel, rfl⟩
  · rw [(busyPart_writes c t ht).2, (busyPart_writes c u hu).2]
  · exact ⟨0, (states c).1 h ▸ writes⟩

theorem witness_FramesApart : FramesApart busyPart := by
  have entries : ∀ e ∈ busyPart.entries, e = ⟨0, 0, 5, .content⟩ := by decide +kernel
  refine ⟨by decide +kernel, fun e h => ?_⟩
  obtain rfl := entries e h
  exact ⟨someTake, by decide +kernel, by decide +kernel⟩

theorem witness_CursorsHeld : CursorsHeld busyPart := by
  have held : ∀ (c : Chan) (k : Slot), busyPart.chans[c].slot = some k → c = 0 := by decide +kernel
  rintro c k l ⟨slot, letter⟩
  obtain rfl := held c k slot
  obtain ⟨rfl, rfl⟩ := busyPart_letters k l letter
  refine ⟨by decide +kernel, fun t h => ?_⟩
  obtain ⟨-, rfl⟩ := busyPart_writes 0 t h
  exact ⟨[], ⟨0, 0, 5, .content⟩, [], by decide +kernel, rfl, rfl, by decide +kernel⟩

/-- The premises of StepKeepsLetterSums, StepKeepsReferences, StepKeepsWritingTakes, StepKeepsFramesApart and
StepKeepsCursors; `witness_busyPart_steps` is the step. -/
theorem witness_StepKeepsLetterSums : LawsHold busyPart :=
  ⟨witness_ChannelsDisciplined, witness_StepKeepsLettersHeld, witness_LetterSums, witness_ReferencesCounted,
    witness_WritingTakesNamed, witness_FramesApart, witness_CursorsHeld⟩

/-- A store in which the first `n` slots of the ring hold the first usable blocks. -/
def ringStore : Nat → Memory
  | 0 => []
  | n + 1 => (ringStore n).putBytes (2 * n) (wordBytes (BitVec.ofNat 16 (32 + n)))

theorem ringStore_reads (n i : Nat) (h : i < n) (w : BlockNo) (eq : w = BitVec.ofNat 16 (32 + i)) :
    Memory.get? (ringStore n) (2 * i) = some (w.extractLsb' 8 8) ∧
      Memory.get? (ringStore n) (2 * i + 1) = some (w.extractLsb' 0 8) := by
  induction n with
  | zero => cases h
  | succ n ih =>
    rw [ringStore]
    by_cases last : i = n
    · subst last eq
      exact ⟨Memory.get?_putBytes_inside (ringStore i) _ (wordBytes (BitVec.ofNat 16 (32 + i))) 0 Nat.zero_lt_two,
        Memory.get?_putBytes_inside (ringStore i) _ (wordBytes (BitVec.ofNat 16 (32 + i))) 1 Nat.one_lt_two⟩
    · rw [Memory.get?_putBytes_outside _ _ _ (.inl (by omega)), Memory.get?_putBytes_outside _ _ _ (.inl (by omega))]
      exact ih (by omega)

/-- The first item of a take waits for its block, every usable block free, in the order the rebuild leaves. -/
def allotting : State :=
  { (working speech .allocate (.ringRead 0) noBlock).withPending [.ringReadDone []] with store := ringStore 8160 }

theorem allotting_store : allotting.store = ringStore 8160 := by rw [allotting]

theorem allotting_ring : allotting.ringBlocks = allotting.ctl.settings.usableBlocks := by
  have slots : ∀ i, i < 8160 → allotting.ringSlot ((0 + i) % 8192) = BitVec.ofNat 16 (32 + i) := fun i h => by
    obtain ⟨high, low⟩ := ringStore_reads 8160 i h _ rfl
    rw [Nat.zero_add, Nat.mod_eq_of_lt (by omega)]
    refine ringSlot_of_bytes ?_ ?_
    · rw [State.storeByte, allotting_store, high, Option.getD_some]
    · rw [State.storeByte, allotting_store, low, Option.getD_some]
  have usable : allotting.ctl.settings.usable = 8160 := by decide +kernel
  have free : allotting.ctl.free = 8160 := by decide +kernel
  have head : allotting.ctl.head = 0 := by decide +kernel
  have blocks : allotting.ctl.settings.blocks = 8192 := by decide +kernel
  have first : allotting.ctl.settings.ringBlocks = 32 := by decide +kernel
  rw [State.ringBlocks, StoreSettings.usableBlocks, usable, free, head, blocks, first]
  exact List.map_congr_left fun i h => slots i (List.mem_range.mp h)

/-- The premises of StepKeepsBlocks, with the ring in use; the step hands block 32 to take 0. -/
theorem witness_StepKeepsBlocks :
    WriterInStep allotting ∧ BlocksCounted allotting ∧ BlocksInPlace allotting ∧
    (∀ i rest, allotting.pending = i :: rest → storeChanges i = []) ∧
    step allotting = .next (after (step allotting)) := by
  have takes : ∀ t : TakeId, allotting.takes[t] = if t = 0 then some (Take.issued 0) else none := by decide +kernel
  have issued : ∀ (t : TakeId) (take : Take), allotting.takes[t] = some take → take = Take.issued 0 := fun t take h => by
    rw [takes t] at h
    split at h
    · exact (Option.some.inj h).symm
    · cases h
  have chains : (List.finRange 128).flatMap allotting.chainOf = [] := List.flatMap_eq_nil_iff.mpr fun t _ => by
    unfold State.chainOf
    cases h : allotting.takes[t] with
    | none => rfl
    | some take => rw [issued t take h]; rfl
  refine ⟨⟨⟨by decide +kernel, by decide +kernel⟩, fun t take h => ?_, .inl (.inr ⟨_, rfl⟩), by decide +kernel⟩,
    fun _ => by decide +kernel,
    ⟨fun _ => ⟨by decide +kernel, by decide +kernel, ?_, fun t take h => ?_, fun t b n h => ?_⟩, nofun⟩, ?_, rfl⟩
  · rw [issued t take h]
    exact ⟨rfl, by decide, nofun⟩
  · rw [chains, allotting_ring]
    exact .of_eq (by rfl)
  · rw [issued t take h, State.chainOf, h, issued t take h]
    rfl
  · cases h
  · rintro i rest h
    cases h
    rfl

theorem witness_StepKeepsNumbers : NumbersDistinct busyPart := by
  refine ⟨by decide +kernel, fun k l h => ?_, fun j k l m hl hm _ => ?_⟩
  · obtain ⟨rfl, rfl⟩ := busyPart_letters k l h
    decide
  · rw [(busyPart_letters j l hl).1, (busyPart_letters k m hm).1]

end Sys2Proof.Tests
end

/-!
PROOFS. The author profiles: a MGMT cell that passes the tests of R164, and PROFILE_READ (R35).
-/

namespace Sys2Proof.Machine

/-! ### A MGMT cell that is served (R163, R164) -/

theorem mgmtPasses_of_intact {m : Mgmt} (used : m.used = 64) (intact : m.intact = true) : mgmtPasses m = true := by
  simp [mgmtPasses, used, intact]

theorem State.mgmtRefusal_of_servesHost {s : State} (serves : s.servesHost) (early : Bool) :
    s.mgmtRefusal early = none := by
  obtain ⟨ready, running⟩ := serves
  simp [State.mgmtRefusal, ready, running]

/-- Past the tests of R164 the command acts on the part without its cell. -/
theorem State.takeMgmt_of_servesHost {s : State} {m : Mgmt} (used : m.used = 64) (intact : m.intact = true)
    (serves : s.servesHost) (i : Instr) (code : Byte) (early : Bool) (act : State → State) :
    s.takeMgmt i m code early act = act (s.takeCell i) := by
  have accepted : (s.takeCell i).mgmtRefusal early = none := State.mgmtRefusal_of_servesHost serves early
  simp only [State.takeMgmt, mgmtPasses_of_intact used intact, accepted, if_true]

/-! ### Profile ids and profile bytes (R27, R192) -/

theorem profileIdOf_of_toNat_eq {b : Byte} {p : ProfileId} (h : b.toNat = p.val) : profileIdOf b = some p := by
  simp [profileIdOf, h]

theorem profileIdOf_eq_none {b : Byte} (h : 16 ≤ b.toNat) : profileIdOf b = none := by
  simp [profileIdOf, h]

theorem AgcMode.code_eq_ite (a : AgcMode) : a.code = if a = .fixed then 0 else 1 := by cases a <;> rfl

/-! ### PROFILE_READ (R35) -/

theorem exec_profileRead (m : Mgmt) (profile : Byte) (s : State) :
    exec (.profileRead m profile) s = execProfileRead m profile s := rfl

theorem State.takeCell_boundChannels (s : State) (i : Instr) (p : ProfileId) :
    (s.takeCell i).boundChannels p = s.boundChannels p := rfl

theorem State.profileReadTaken_of_id {m : Mgmt} {profile : Byte} {p : ProfileId} (s : State)
    (id : profileIdOf profile = some p) :
    s.profileReadTaken m profile =
      s.reply m.tag 0x03 .ok ([profile] ++ s.profiles[p].bytes ++ chanListBytes (s.boundChannels p)) := by
  simp only [State.profileReadTaken, id]

theorem State.profileReadTaken_of_no_id {m : Mgmt} {profile : Byte} (s : State) (id : profileIdOf profile = none) :
    s.profileReadTaken m profile = s.reply m.tag 0x03 .badArg [] := by
  simp only [State.profileReadTaken, id]

/-- A PROFILE_READ that is served offers its REPLY on the part without its cell, and so changes nothing else. -/
theorem profileRead_replies {m : Mgmt} {s : State} {profile : Byte} {result : ReplyResult} {fields : List Byte}
    (used : m.used = 64) (intact : m.intact = true) (serves : s.servesHost)
    (taken : (s.takeCell (.profileRead m profile)).profileReadTaken m profile =
      (s.takeCell (.profileRead m profile)).reply m.tag 0x03 result fields) :
    Replies (.profileRead m profile) s m.tag 0x03 result fields fun x => Frame [.handed] s x :=
  ⟨s.takeCell (.profileRead m profile),
    by rw [exec_profileRead, execProfileRead, State.takeMgmt_of_servesHost used intact serves, taken],
    s.takeCell_frame _⟩

/-- Settles O40: an id 0–15 names a profile, whose bytes and bound channels the taken cell leaves as they stand; any
other id names none. -/
theorem profileReadReports : Obligations.ProfileReadReports := by
  unfold Obligations.ProfileReadReports
  intro m s profile used intact serves
  refine ⟨?_, fun high => ?_⟩
  · rintro p pf bound id rfl rfl
    refine profileRead_replies used intact serves ?_
    rw [State.profileReadTaken_of_id _ (profileIdOf_of_toNat_eq id), State.takeCell_boundChannels,
      State.takeCell_profiles, Profile.bytes, AgcMode.code_eq_ite]
    simp only [chanListBytes, State.boundChannels, Chan.number, List.append_assoc]
  · exact profileRead_replies used intact serves
      (State.profileReadTaken_of_no_id _ (profileIdOf_eq_none high))

end Sys2Proof.Machine

/-!
PROOFS. The recorder commands: a CONTROL cell that passes the tests of R61, and POSITION (R74).
-/

namespace Sys2Proof.Machine

/-! ### The abandon timer started anew (R81) -/

/-- Of a channel's record a CONTROL cell touches the abandon timer alone, and only in STOPPED. -/
theorem State.restartAbandon_chans_self (s : State) (c : Chan) :
    (s.restartAbandon c).chans[c] = { s.chans[c] with
      abandonTimer := if s.chans[c].state = .stopped then some (s.profileOf c).abandonMinutes
        else s.chans[c].abandonTimer } := by
  unfold State.restartAbandon
  split <;> simp

theorem State.restartAbandon_chans_ne (s : State) {c d : Chan} (ne : d ≠ c) :
    (s.restartAbandon c).chans[d] = s.chans[d] := by
  have vals : c.val ≠ d.val := fun h => ne (Fin.ext h.symm)
  unfold State.restartAbandon
  split
  · simp [vals]
  · rfl

theorem State.restartAbandon_onlyChannel (s : State) (c : Chan) : OnlyChannel c s (s.restartAbandon c) := by
  intro d ne
  have kept := s.restartAbandon_frame c
  have asm : (s.restartAbandon c).asm = s.asm := (kept .asm (by decide)).symm
  have ctx : (s.restartAbandon c).ctx = s.ctx := (kept .ctx (by decide)).symm
  have stretch : (s.restartAbandon c).stretch = s.stretch := (kept .stretch (by decide)).symm
  have conds : (s.restartAbandon c).chanConds = s.chanConds := (kept .chanConds (by decide)).symm
  rw [asm, ctx, stretch, conds]
  exact ⟨s.restartAbandon_chans_ne ne, rfl, rfl, rfl, rfl⟩

theorem State.restartAbandon_serves {s : State} {c : Chan} {state : ChanState} (serves : s.serves c state) :
    (s.restartAbandon c).serves c state := by
  obtain ⟨ready, running, held⟩ := serves
  have kept := s.restartAbandon_frame c
  have startup : (s.restartAbandon c).startup = s.startup := (kept .startup (by decide)).symm
  have restart : (s.restartAbandon c).restart = s.restart := (kept .restart (by decide)).symm
  exact ⟨startup ▸ ready, restart.trans running, by rw [State.restartAbandon_chans_self]; exact held⟩

/-- The letter a channel holds open does not depend on its abandon timer. -/
theorem State.restartAbandon_openLetter (s : State) (c : Chan) :
    (s.restartAbandon c).openLetter c = s.openLetter c := by
  have letters : (s.restartAbandon c).letters = s.letters := (s.restartAbandon_frame c .letters (by decide)).symm
  simp only [State.openLetter, State.restartAbandon_chans_self, letters]

/-- An ACK carries nothing of the abandon timer: its values are those before the timer was started anew (R63). -/
theorem State.restartAbandon_ack (s : State) (c : Chan) (code : Byte) (result : AckResult) :
    (s.restartAbandon c).ack c code result = (s.restartAbandon c).offer (outChannel c) 5 11
      (ackPayload code result s.chans[c].state s.chans[c].cursor (s.chanLength c) (s.chanLetterNo c)) := by
  simp only [State.ack, State.ackWith, State.restartAbandon_chans_self, State.chanLength, State.chanLetterNo,
    State.restartAbandon_openLetter]

/-! ### A CONTROL cell that is taken (R61) -/

/-- Taking the cell and starting the timer anew is all that a refusal changes besides its ACK. -/
theorem State.takeCell_restartAbandon_onlyRefused (s : State) (i : Instr) (c : Chan) :
    OnlyRefused c s ((s.takeCell i).restartAbandon c) :=
  ⟨((s.takeCell_frame i).widen).andThen (State.restartAbandon_frame _ _),
    (s.takeCell i).restartAbandon_onlyChannel c, (s.takeCell i).restartAbandon_chans_self c⟩

theorem State.controlRefusal_eq_none {s : State} {c : Chan} {state : ChanState} {accepts : List ChanState}
    (serves : s.serves c state) (bound : state ≠ .unbound) (accepted : state ∈ accepts) :
    s.controlRefusal c accepts = none := by
  obtain ⟨ready, running, rfl⟩ := serves
  have served : ¬(s.startup.state ≠ .ready ∨ s.restart.isSome) := by simp [ready, running]
  rw [State.controlRefusal, if_neg served, if_neg bound, if_pos accepted]

/-- Past the tests of R61 the command acts on the part without its cell, the abandon timer started anew. -/
theorem State.takeControl_of_accepted {s : State} {c : Chan} {state : ChanState} {accepts : List ChanState}
    (serves : s.serves c state) (bound : state ≠ .unbound) (accepted : state ∈ accepts) (i : Instr) (code : Byte)
    (act : State → State) :
    s.takeControl i c code accepts act = act ((s.takeCell i).restartAbandon c) := by
  have taken : (s.takeCell i).serves c state := serves
  simp only [State.takeControl,
    State.controlRefusal_eq_none (State.restartAbandon_serves taken) bound accepted]

/-! ### POSITION (R74) -/

theorem exec_position (c : Chan) (s : State) : exec (.position c) s = execPosition c s := rfl

theorem ChanState.mem_bound_of_ne_unbound {state : ChanState} (bound : state ≠ .unbound) :
    state ∈ [ChanState.idle, .stopped, .recording, .stopping] := by
  cases state with
  | unbound => exact absurd rfl bound
  | idle | stopped | recording | stopping => decide

/-- Settles O19: every bound state accepts POSITION, and its ACK reads nothing that taking the cell changes. -/
theorem positionReports : Obligations.PositionReports := by
  unfold Obligations.PositionReports
  intro c s state serves bound
  refine ⟨(s.takeCell (.position c)).restartAbandon c, s.takeCell_restartAbandon_onlyRefused _ c, ?_⟩
  have accepted := ChanState.mem_bound_of_ne_unbound bound
  rw [exec_position, execPosition, State.takeControl_of_accepted serves bound accepted, State.restartAbandon_ack]
  obtain ⟨-, -, rfl⟩ := serves
  rfl

end Sys2Proof.Machine
